-- ==== Sys2Proof/Word.lean ====
section
/-! DEFINITION. The two word types of the hardware (00_scope.md rule R3: XLEN = 8, ALEN = 16). Everything that takes a
word apart or puts one together is in Machine/Bits.lean. -/

namespace Sys2Proof

/-- A datum: the width of A, X, Y, SP, of every memory byte and of every bus datum (R3, `XLEN`). -/
abbrev Byte := BitVec 8

/-- An address: the width of PC and of every bus address (R3, `ALEN`). -/
abbrev Word := BitVec 16

end Sys2Proof
end

