-- ==== Sys2Proof/Machine/Bits.lean ====
section
/-! DEFINITION. Bytes of words, words of bytes, and the two extensions of 00_scope.md section 6: the byte-order and
sign-extension helpers that the decoder and the machine share. -/

namespace Sys2Proof

/-- `zext_16(v)`: the byte as a word of the same value. -/
def zext16 (v : Byte) : Word := v.setWidth 16

/-- `sext_16(v)`: the byte read as two's complement and widened. -/
def sext16 (v : Byte) : Word := v.signExtend 16

/-- `w[7:0]`. -/
def lowByte (w : Word) : Byte := w.extractLsb' 0 8

/-- `w[15:8]`. -/
def highByte (w : Word) : Byte := w.extractLsb' 8 8

/-- `{hi, lo}`: the word of value `hi * 256 + lo`. -/
def wordOf (hi lo : Byte) : Word := hi ++ lo

end Sys2Proof
end

