-- ==== Sys2Proof/Syntax.lean ====
section
/-! DEFINITION. The instructions: one constructor of `Instr` per row of spec/opcode_table.json (151 rows, 56 mnemonics,
30_encoding.md rule R74), with whole-byte operands (R71, R73, R78), and the same instruction seen as an operation with
an operand (`Instr.form`), which the statements use to speak of all the forms of a mnemonic at once. -/

namespace Sys2Proof

/-- The formats of R71, under the spec's format ids. -/
inductive Format where
  | imp | acc | imm | zp | zpx | zpy | abs | absx | absy | indx | indy | ind | rel
  deriving DecidableEq, Repr

/-- The modes that resolve to an address (R102, R104 to R111), with their operand bytes. An absolute mode's two bytes
stand as the word `{hi8, lo8}` (R73). -/
inductive AddrMode where
  | zp (b : Byte)
  | zpx (b : Byte)
  | zpy (b : Byte)
  | abs (w : Word)
  | absx (w : Word)
  | absy (w : Word)
  | indx (b : Byte)
  | indy (b : Byte)
  deriving DecidableEq, Repr

/-- A value-producing operand (R102): the operand byte itself, or the byte at a resolved address. -/
inductive Operand where
  | imm (v : Byte)
  | mem (m : AddrMode)
  deriving DecidableEq, Repr

/-- What a read-modify-write instruction works on (R102, R113): the accumulator, or a resolved address. "No address" is
an outcome of its own, not a sentinel address. -/
inductive Target where
  | acc
  | mem (m : AddrMode)
  deriving DecidableEq, Repr

/-- The mnemonics with a value-producing operand (R102). -/
inductive ReadOp where
  | lda | ldx | ldy | and | ora | eor | bit | adc | sbc | cmp | cpx | cpy
  deriving DecidableEq, Repr

/-- The stores (R133 to R135). -/
inductive StoreOp where
  | sta | stx | sty
  deriving DecidableEq, Repr

/-- The mnemonics that read, modify and write back (R160 to R163, R190, R191). -/
inductive RmwOp where
  | asl | lsr | rol | ror | inc | dec
  deriving DecidableEq, Repr

/-- The conditional branches (R204 to R211). -/
inductive BranchOp where
  | bcc | bcs | beq | bmi | bne | bpl | bvc | bvs
  deriving DecidableEq, Repr

/-- The mnemonics without an operand, format `imp` (R114). -/
inductive ImpliedOp where
  | tax | tay | txa | tya | tsx | txs
  | inx | iny | dex | dey
  | pha | pla | php | plp
  | rts | brk | rti
  | clc | cld | cli | clv | sec | sed | sei
  | nop
  deriving DecidableEq, Repr

/-- An operation with its operand. Not every combination is an instruction: `Form.wf` says which. -/
inductive Form where
  | read (op : ReadOp) (o : Operand)
  | store (op : StoreOp) (m : AddrMode)
  | rmw (op : RmwOp) (t : Target)
  /-- JMP absolute. -/
  | jump (w : Word)
  /-- JMP indirect; the word is the pointer's address. -/
  | jumpInd (w : Word)
  /-- JSR. -/
  | call (w : Word)
  | branch (op : BranchOp) (d : Byte)
  | implied (op : ImpliedOp)
  deriving DecidableEq, Repr

def AddrMode.format : AddrMode → Format
  | .zp _ => .zp
  | .zpx _ => .zpx
  | .zpy _ => .zpy
  | .abs _ => .abs
  | .absx _ => .absx
  | .absy _ => .absy
  | .indx _ => .indx
  | .indy _ => .indy

def Operand.format : Operand → Format
  | .imm _ => .imm
  | .mem m => m.format

def Target.format : Target → Format
  | .acc => .acc
  | .mem m => m.format

def Form.format : Form → Format
  | .read _ o => o.format
  | .store _ m => m.format
  | .rmw _ t => t.format
  | .jump _ | .call _ => .abs
  | .jumpInd _ => .ind
  | .branch _ _ => .rel
  | .implied _ => .imp

/-- The instructions of R74, in the order of spec/opcode_table.json. `v` is `imm8`, `b` is `zp8`, `d` is `rel8` and `w`
is the word `{hi8, lo8}` (R71, R73). -/
inductive Instr where
  | brk
  | oraIndx (b : Byte)
  | oraZp (b : Byte)
  | aslZp (b : Byte)
  | php
  | oraImm (v : Byte)
  | aslAcc
  | oraAbs (w : Word)
  | aslAbs (w : Word)
  | bpl (d : Byte)
  | oraIndy (b : Byte)
  | oraZpx (b : Byte)
  | aslZpx (b : Byte)
  | clc
  | oraAbsy (w : Word)
  | oraAbsx (w : Word)
  | aslAbsx (w : Word)
  | jsr (w : Word)
  | andIndx (b : Byte)
  | bitZp (b : Byte)
  | andZp (b : Byte)
  | rolZp (b : Byte)
  | plp
  | andImm (v : Byte)
  | rolAcc
  | bitAbs (w : Word)
  | andAbs (w : Word)
  | rolAbs (w : Word)
  | bmi (d : Byte)
  | andIndy (b : Byte)
  | andZpx (b : Byte)
  | rolZpx (b : Byte)
  | sec
  | andAbsy (w : Word)
  | andAbsx (w : Word)
  | rolAbsx (w : Word)
  | rti
  | eorIndx (b : Byte)
  | eorZp (b : Byte)
  | lsrZp (b : Byte)
  | pha
  | eorImm (v : Byte)
  | lsrAcc
  | jmpAbs (w : Word)
  | eorAbs (w : Word)
  | lsrAbs (w : Word)
  | bvc (d : Byte)
  | eorIndy (b : Byte)
  | eorZpx (b : Byte)
  | lsrZpx (b : Byte)
  | cli
  | eorAbsy (w : Word)
  | eorAbsx (w : Word)
  | lsrAbsx (w : Word)
  | rts
  | adcIndx (b : Byte)
  | adcZp (b : Byte)
  | rorZp (b : Byte)
  | pla
  | adcImm (v : Byte)
  | rorAcc
  | jmpInd (w : Word)
  | adcAbs (w : Word)
  | rorAbs (w : Word)
  | bvs (d : Byte)
  | adcIndy (b : Byte)
  | adcZpx (b : Byte)
  | rorZpx (b : Byte)
  | sei
  | adcAbsy (w : Word)
  | adcAbsx (w : Word)
  | rorAbsx (w : Word)
  | staIndx (b : Byte)
  | styZp (b : Byte)
  | staZp (b : Byte)
  | stxZp (b : Byte)
  | dey
  | txa
  | styAbs (w : Word)
  | staAbs (w : Word)
  | stxAbs (w : Word)
  | bcc (d : Byte)
  | staIndy (b : Byte)
  | styZpx (b : Byte)
  | staZpx (b : Byte)
  | stxZpy (b : Byte)
  | tya
  | staAbsy (w : Word)
  | txs
  | staAbsx (w : Word)
  | ldyImm (v : Byte)
  | ldaIndx (b : Byte)
  | ldxImm (v : Byte)
  | ldyZp (b : Byte)
  | ldaZp (b : Byte)
  | ldxZp (b : Byte)
  | tay
  | ldaImm (v : Byte)
  | tax
  | ldyAbs (w : Word)
  | ldaAbs (w : Word)
  | ldxAbs (w : Word)
  | bcs (d : Byte)
  | ldaIndy (b : Byte)
  | ldyZpx (b : Byte)
  | ldaZpx (b : Byte)
  | ldxZpy (b : Byte)
  | clv
  | ldaAbsy (w : Word)
  | tsx
  | ldyAbsx (w : Word)
  | ldaAbsx (w : Word)
  | ldxAbsy (w : Word)
  | cpyImm (v : Byte)
  | cmpIndx (b : Byte)
  | cpyZp (b : Byte)
  | cmpZp (b : Byte)
  | decZp (b : Byte)
  | iny
  | cmpImm (v : Byte)
  | dex
  | cpyAbs (w : Word)
  | cmpAbs (w : Word)
  | decAbs (w : Word)
  | bne (d : Byte)
  | cmpIndy (b : Byte)
  | cmpZpx (b : Byte)
  | decZpx (b : Byte)
  | cld
  | cmpAbsy (w : Word)
  | cmpAbsx (w : Word)
  | decAbsx (w : Word)
  | cpxImm (v : Byte)
  | sbcIndx (b : Byte)
  | cpxZp (b : Byte)
  | sbcZp (b : Byte)
  | incZp (b : Byte)
  | inx
  | sbcImm (v : Byte)
  | nop
  | cpxAbs (w : Word)
  | sbcAbs (w : Word)
  | incAbs (w : Word)
  | beq (d : Byte)
  | sbcIndy (b : Byte)
  | sbcZpx (b : Byte)
  | incZpx (b : Byte)
  | sed
  | sbcAbsy (w : Word)
  | sbcAbsx (w : Word)
  | incAbsx (w : Word)
  deriving DecidableEq, Repr

/-- The operation and the operand of each row of R74. -/
def Instr.form : Instr → Form
  | .brk => .implied .brk
  | .oraIndx b => .read .ora (.mem (.indx b))
  | .oraZp b => .read .ora (.mem (.zp b))
  | .aslZp b => .rmw .asl (.mem (.zp b))
  | .php => .implied .php
  | .oraImm v => .read .ora (.imm v)
  | .aslAcc => .rmw .asl .acc
  | .oraAbs w => .read .ora (.mem (.abs w))
  | .aslAbs w => .rmw .asl (.mem (.abs w))
  | .bpl d => .branch .bpl d
  | .oraIndy b => .read .ora (.mem (.indy b))
  | .oraZpx b => .read .ora (.mem (.zpx b))
  | .aslZpx b => .rmw .asl (.mem (.zpx b))
  | .clc => .implied .clc
  | .oraAbsy w => .read .ora (.mem (.absy w))
  | .oraAbsx w => .read .ora (.mem (.absx w))
  | .aslAbsx w => .rmw .asl (.mem (.absx w))
  | .jsr w => .call w
  | .andIndx b => .read .and (.mem (.indx b))
  | .bitZp b => .read .bit (.mem (.zp b))
  | .andZp b => .read .and (.mem (.zp b))
  | .rolZp b => .rmw .rol (.mem (.zp b))
  | .plp => .implied .plp
  | .andImm v => .read .and (.imm v)
  | .rolAcc => .rmw .rol .acc
  | .bitAbs w => .read .bit (.mem (.abs w))
  | .andAbs w => .read .and (.mem (.abs w))
  | .rolAbs w => .rmw .rol (.mem (.abs w))
  | .bmi d => .branch .bmi d
  | .andIndy b => .read .and (.mem (.indy b))
  | .andZpx b => .read .and (.mem (.zpx b))
  | .rolZpx b => .rmw .rol (.mem (.zpx b))
  | .sec => .implied .sec
  | .andAbsy w => .read .and (.mem (.absy w))
  | .andAbsx w => .read .and (.mem (.absx w))
  | .rolAbsx w => .rmw .rol (.mem (.absx w))
  | .rti => .implied .rti
  | .eorIndx b => .read .eor (.mem (.indx b))
  | .eorZp b => .read .eor (.mem (.zp b))
  | .lsrZp b => .rmw .lsr (.mem (.zp b))
  | .pha => .implied .pha
  | .eorImm v => .read .eor (.imm v)
  | .lsrAcc => .rmw .lsr .acc
  | .jmpAbs w => .jump w
  | .eorAbs w => .read .eor (.mem (.abs w))
  | .lsrAbs w => .rmw .lsr (.mem (.abs w))
  | .bvc d => .branch .bvc d
  | .eorIndy b => .read .eor (.mem (.indy b))
  | .eorZpx b => .read .eor (.mem (.zpx b))
  | .lsrZpx b => .rmw .lsr (.mem (.zpx b))
  | .cli => .implied .cli
  | .eorAbsy w => .read .eor (.mem (.absy w))
  | .eorAbsx w => .read .eor (.mem (.absx w))
  | .lsrAbsx w => .rmw .lsr (.mem (.absx w))
  | .rts => .implied .rts
  | .adcIndx b => .read .adc (.mem (.indx b))
  | .adcZp b => .read .adc (.mem (.zp b))
  | .rorZp b => .rmw .ror (.mem (.zp b))
  | .pla => .implied .pla
  | .adcImm v => .read .adc (.imm v)
  | .rorAcc => .rmw .ror .acc
  | .jmpInd w => .jumpInd w
  | .adcAbs w => .read .adc (.mem (.abs w))
  | .rorAbs w => .rmw .ror (.mem (.abs w))
  | .bvs d => .branch .bvs d
  | .adcIndy b => .read .adc (.mem (.indy b))
  | .adcZpx b => .read .adc (.mem (.zpx b))
  | .rorZpx b => .rmw .ror (.mem (.zpx b))
  | .sei => .implied .sei
  | .adcAbsy w => .read .adc (.mem (.absy w))
  | .adcAbsx w => .read .adc (.mem (.absx w))
  | .rorAbsx w => .rmw .ror (.mem (.absx w))
  | .staIndx b => .store .sta (.indx b)
  | .styZp b => .store .sty (.zp b)
  | .staZp b => .store .sta (.zp b)
  | .stxZp b => .store .stx (.zp b)
  | .dey => .implied .dey
  | .txa => .implied .txa
  | .styAbs w => .store .sty (.abs w)
  | .staAbs w => .store .sta (.abs w)
  | .stxAbs w => .store .stx (.abs w)
  | .bcc d => .branch .bcc d
  | .staIndy b => .store .sta (.indy b)
  | .styZpx b => .store .sty (.zpx b)
  | .staZpx b => .store .sta (.zpx b)
  | .stxZpy b => .store .stx (.zpy b)
  | .tya => .implied .tya
  | .staAbsy w => .store .sta (.absy w)
  | .txs => .implied .txs
  | .staAbsx w => .store .sta (.absx w)
  | .ldyImm v => .read .ldy (.imm v)
  | .ldaIndx b => .read .lda (.mem (.indx b))
  | .ldxImm v => .read .ldx (.imm v)
  | .ldyZp b => .read .ldy (.mem (.zp b))
  | .ldaZp b => .read .lda (.mem (.zp b))
  | .ldxZp b => .read .ldx (.mem (.zp b))
  | .tay => .implied .tay
  | .ldaImm v => .read .lda (.imm v)
  | .tax => .implied .tax
  | .ldyAbs w => .read .ldy (.mem (.abs w))
  | .ldaAbs w => .read .lda (.mem (.abs w))
  | .ldxAbs w => .read .ldx (.mem (.abs w))
  | .bcs d => .branch .bcs d
  | .ldaIndy b => .read .lda (.mem (.indy b))
  | .ldyZpx b => .read .ldy (.mem (.zpx b))
  | .ldaZpx b => .read .lda (.mem (.zpx b))
  | .ldxZpy b => .read .ldx (.mem (.zpy b))
  | .clv => .implied .clv
  | .ldaAbsy w => .read .lda (.mem (.absy w))
  | .tsx => .implied .tsx
  | .ldyAbsx w => .read .ldy (.mem (.absx w))
  | .ldaAbsx w => .read .lda (.mem (.absx w))
  | .ldxAbsy w => .read .ldx (.mem (.absy w))
  | .cpyImm v => .read .cpy (.imm v)
  | .cmpIndx b => .read .cmp (.mem (.indx b))
  | .cpyZp b => .read .cpy (.mem (.zp b))
  | .cmpZp b => .read .cmp (.mem (.zp b))
  | .decZp b => .rmw .dec (.mem (.zp b))
  | .iny => .implied .iny
  | .cmpImm v => .read .cmp (.imm v)
  | .dex => .implied .dex
  | .cpyAbs w => .read .cpy (.mem (.abs w))
  | .cmpAbs w => .read .cmp (.mem (.abs w))
  | .decAbs w => .rmw .dec (.mem (.abs w))
  | .bne d => .branch .bne d
  | .cmpIndy b => .read .cmp (.mem (.indy b))
  | .cmpZpx b => .read .cmp (.mem (.zpx b))
  | .decZpx b => .rmw .dec (.mem (.zpx b))
  | .cld => .implied .cld
  | .cmpAbsy w => .read .cmp (.mem (.absy w))
  | .cmpAbsx w => .read .cmp (.mem (.absx w))
  | .decAbsx w => .rmw .dec (.mem (.absx w))
  | .cpxImm v => .read .cpx (.imm v)
  | .sbcIndx b => .read .sbc (.mem (.indx b))
  | .cpxZp b => .read .cpx (.mem (.zp b))
  | .sbcZp b => .read .sbc (.mem (.zp b))
  | .incZp b => .rmw .inc (.mem (.zp b))
  | .inx => .implied .inx
  | .sbcImm v => .read .sbc (.imm v)
  | .nop => .implied .nop
  | .cpxAbs w => .read .cpx (.mem (.abs w))
  | .sbcAbs w => .read .sbc (.mem (.abs w))
  | .incAbs w => .rmw .inc (.mem (.abs w))
  | .beq d => .branch .beq d
  | .sbcIndy b => .read .sbc (.mem (.indy b))
  | .sbcZpx b => .read .sbc (.mem (.zpx b))
  | .incZpx b => .rmw .inc (.mem (.zpx b))
  | .sed => .implied .sed
  | .sbcAbsy w => .read .sbc (.mem (.absy w))
  | .sbcAbsx w => .read .sbc (.mem (.absx w))
  | .incAbsx w => .rmw .inc (.mem (.absx w))

end Sys2Proof
end

