-- ==== Sys2Proof/WellFormed.lean ====
section
/-! DEFINITION. Which operation takes which operand form (30_encoding.md rule R74, the map listed by mnemonic). The
operands of `Instr` carry their widths in their types and every constructor is a row of the table, so that every term of
`Instr` is well-formed; the check itself is on `Form`, where an operation and an operand form are put together freely. -/

namespace Sys2Proof

/-- The formats of the read-only-operand mnemonics in R74. -/
def ReadOp.formats : ReadOp → List Format
  | .lda | .and | .ora | .eor | .adc | .sbc | .cmp => [.imm, .zp, .zpx, .abs, .absx, .absy, .indx, .indy]
  | .ldx => [.imm, .zp, .zpy, .abs, .absy]
  | .ldy => [.imm, .zp, .zpx, .abs, .absx]
  | .bit => [.zp, .abs]
  | .cpx | .cpy => [.imm, .zp, .abs]

/-- The formats of the stores in R74. -/
def StoreOp.formats : StoreOp → List Format
  | .sta => [.zp, .zpx, .abs, .absx, .absy, .indx, .indy]
  | .stx => [.zp, .zpy, .abs]
  | .sty => [.zp, .zpx, .abs]

/-- The formats of the read-modify-write mnemonics in R74: only shifts and rotates have an accumulator form (R113). -/
def RmwOp.formats : RmwOp → List Format
  | .asl | .lsr | .rol | .ror => [.acc, .zp, .zpx, .abs, .absx]
  | .inc | .dec => [.zp, .zpx, .abs, .absx]

/-- The operation has an opcode for that operand form. -/
def Form.wf : Form → Bool
  | .read op o => op.formats.contains o.format
  | .store op m => op.formats.contains m.format
  | .rmw op t => op.formats.contains t.format
  | .jump _ | .jumpInd _ | .call _ | .branch _ _ | .implied _ => true

/-- An instruction is well-formed when its form is one R74 gives. -/
def Instr.wf (i : Instr) : Bool := i.form.wf

end Sys2Proof
end

