-- ==== Sys2Proof/Decode.lean ====
section
/-! DEFINITION. The opcode map of 30_encoding.md rule R74 as a table, the decoder that reads it, total on any list of
bytes and rejecting by name (R75, R77), and the encoder. Every opcode number is the spec's own decision D2 (log 8). -/

namespace Sys2Proof

/-- R71: the length in bytes of each format. -/
def Format.length : Format → Nat
  | .imp | .acc => 1
  | .imm | .zp | .zpx | .zpy | .indx | .indy | .rel => 2
  | .abs | .absx | .absy | .ind => 3

/-- Bytes of an instruction with this operand, opcode included. -/
def AddrMode.length (m : AddrMode) : Nat := m.format.length

def Operand.length (o : Operand) : Nat := o.format.length

def Target.length (t : Target) : Nat := t.format.length

/-- The length of an instruction (R70: the opcode byte alone determines it). -/
def Instr.length (i : Instr) : Nat := i.form.format.length

/-- How an instruction is made from its operand bytes: none, one byte, or two bytes read as a little-endian word
(R71, R73). -/
inductive Maker where
  | none (i : Instr)
  | byte (f : Byte → Instr)
  | word (f : Word → Instr)

/-- One assigned cell of R74's map. -/
structure OpRow where
  opcode : Byte
  make : Maker

/-- R74, row `0x`. -/
def opRow0 : List OpRow :=
  [ ⟨0x00, .none .brk⟩,
    ⟨0x01, .byte .oraIndx⟩,
    ⟨0x05, .byte .oraZp⟩,
    ⟨0x06, .byte .aslZp⟩,
    ⟨0x08, .none .php⟩,
    ⟨0x09, .byte .oraImm⟩,
    ⟨0x0A, .none .aslAcc⟩,
    ⟨0x0D, .word .oraAbs⟩,
    ⟨0x0E, .word .aslAbs⟩ ]

/-- R74, row `1x`. -/
def opRow1 : List OpRow :=
  [ ⟨0x10, .byte .bpl⟩,
    ⟨0x11, .byte .oraIndy⟩,
    ⟨0x15, .byte .oraZpx⟩,
    ⟨0x16, .byte .aslZpx⟩,
    ⟨0x18, .none .clc⟩,
    ⟨0x19, .word .oraAbsy⟩,
    ⟨0x1D, .word .oraAbsx⟩,
    ⟨0x1E, .word .aslAbsx⟩ ]

/-- R74, row `2x`. -/
def opRow2 : List OpRow :=
  [ ⟨0x20, .word .jsr⟩,
    ⟨0x21, .byte .andIndx⟩,
    ⟨0x24, .byte .bitZp⟩,
    ⟨0x25, .byte .andZp⟩,
    ⟨0x26, .byte .rolZp⟩,
    ⟨0x28, .none .plp⟩,
    ⟨0x29, .byte .andImm⟩,
    ⟨0x2A, .none .rolAcc⟩,
    ⟨0x2C, .word .bitAbs⟩,
    ⟨0x2D, .word .andAbs⟩,
    ⟨0x2E, .word .rolAbs⟩ ]

/-- R74, row `3x`. -/
def opRow3 : List OpRow :=
  [ ⟨0x30, .byte .bmi⟩,
    ⟨0x31, .byte .andIndy⟩,
    ⟨0x35, .byte .andZpx⟩,
    ⟨0x36, .byte .rolZpx⟩,
    ⟨0x38, .none .sec⟩,
    ⟨0x39, .word .andAbsy⟩,
    ⟨0x3D, .word .andAbsx⟩,
    ⟨0x3E, .word .rolAbsx⟩ ]

/-- R74, row `4x`. -/
def opRow4 : List OpRow :=
  [ ⟨0x40, .none .rti⟩,
    ⟨0x41, .byte .eorIndx⟩,
    ⟨0x45, .byte .eorZp⟩,
    ⟨0x46, .byte .lsrZp⟩,
    ⟨0x48, .none .pha⟩,
    ⟨0x49, .byte .eorImm⟩,
    ⟨0x4A, .none .lsrAcc⟩,
    ⟨0x4C, .word .jmpAbs⟩,
    ⟨0x4D, .word .eorAbs⟩,
    ⟨0x4E, .word .lsrAbs⟩ ]

/-- R74, row `5x`. -/
def opRow5 : List OpRow :=
  [ ⟨0x50, .byte .bvc⟩,
    ⟨0x51, .byte .eorIndy⟩,
    ⟨0x55, .byte .eorZpx⟩,
    ⟨0x56, .byte .lsrZpx⟩,
    ⟨0x58, .none .cli⟩,
    ⟨0x59, .word .eorAbsy⟩,
    ⟨0x5D, .word .eorAbsx⟩,
    ⟨0x5E, .word .lsrAbsx⟩ ]

/-- R74, row `6x`. -/
def opRow6 : List OpRow :=
  [ ⟨0x60, .none .rts⟩,
    ⟨0x61, .byte .adcIndx⟩,
    ⟨0x65, .byte .adcZp⟩,
    ⟨0x66, .byte .rorZp⟩,
    ⟨0x68, .none .pla⟩,
    ⟨0x69, .byte .adcImm⟩,
    ⟨0x6A, .none .rorAcc⟩,
    ⟨0x6C, .word .jmpInd⟩,
    ⟨0x6D, .word .adcAbs⟩,
    ⟨0x6E, .word .rorAbs⟩ ]

/-- R74, row `7x`. -/
def opRow7 : List OpRow :=
  [ ⟨0x70, .byte .bvs⟩,
    ⟨0x71, .byte .adcIndy⟩,
    ⟨0x75, .byte .adcZpx⟩,
    ⟨0x76, .byte .rorZpx⟩,
    ⟨0x78, .none .sei⟩,
    ⟨0x79, .word .adcAbsy⟩,
    ⟨0x7D, .word .adcAbsx⟩,
    ⟨0x7E, .word .rorAbsx⟩ ]

/-- R74, row `8x`. -/
def opRow8 : List OpRow :=
  [ ⟨0x81, .byte .staIndx⟩,
    ⟨0x84, .byte .styZp⟩,
    ⟨0x85, .byte .staZp⟩,
    ⟨0x86, .byte .stxZp⟩,
    ⟨0x88, .none .dey⟩,
    ⟨0x8A, .none .txa⟩,
    ⟨0x8C, .word .styAbs⟩,
    ⟨0x8D, .word .staAbs⟩,
    ⟨0x8E, .word .stxAbs⟩ ]

/-- R74, row `9x`. -/
def opRow9 : List OpRow :=
  [ ⟨0x90, .byte .bcc⟩,
    ⟨0x91, .byte .staIndy⟩,
    ⟨0x94, .byte .styZpx⟩,
    ⟨0x95, .byte .staZpx⟩,
    ⟨0x96, .byte .stxZpy⟩,
    ⟨0x98, .none .tya⟩,
    ⟨0x99, .word .staAbsy⟩,
    ⟨0x9A, .none .txs⟩,
    ⟨0x9D, .word .staAbsx⟩ ]

/-- R74, row `Ax`. -/
def opRowA : List OpRow :=
  [ ⟨0xA0, .byte .ldyImm⟩,
    ⟨0xA1, .byte .ldaIndx⟩,
    ⟨0xA2, .byte .ldxImm⟩,
    ⟨0xA4, .byte .ldyZp⟩,
    ⟨0xA5, .byte .ldaZp⟩,
    ⟨0xA6, .byte .ldxZp⟩,
    ⟨0xA8, .none .tay⟩,
    ⟨0xA9, .byte .ldaImm⟩,
    ⟨0xAA, .none .tax⟩,
    ⟨0xAC, .word .ldyAbs⟩,
    ⟨0xAD, .word .ldaAbs⟩,
    ⟨0xAE, .word .ldxAbs⟩ ]

/-- R74, row `Bx`. -/
def opRowB : List OpRow :=
  [ ⟨0xB0, .byte .bcs⟩,
    ⟨0xB1, .byte .ldaIndy⟩,
    ⟨0xB4, .byte .ldyZpx⟩,
    ⟨0xB5, .byte .ldaZpx⟩,
    ⟨0xB6, .byte .ldxZpy⟩,
    ⟨0xB8, .none .clv⟩,
    ⟨0xB9, .word .ldaAbsy⟩,
    ⟨0xBA, .none .tsx⟩,
    ⟨0xBC, .word .ldyAbsx⟩,
    ⟨0xBD, .word .ldaAbsx⟩,
    ⟨0xBE, .word .ldxAbsy⟩ ]

/-- R74, row `Cx`. -/
def opRowC : List OpRow :=
  [ ⟨0xC0, .byte .cpyImm⟩,
    ⟨0xC1, .byte .cmpIndx⟩,
    ⟨0xC4, .byte .cpyZp⟩,
    ⟨0xC5, .byte .cmpZp⟩,
    ⟨0xC6, .byte .decZp⟩,
    ⟨0xC8, .none .iny⟩,
    ⟨0xC9, .byte .cmpImm⟩,
    ⟨0xCA, .none .dex⟩,
    ⟨0xCC, .word .cpyAbs⟩,
    ⟨0xCD, .word .cmpAbs⟩,
    ⟨0xCE, .word .decAbs⟩ ]

/-- R74, row `Dx`. -/
def opRowD : List OpRow :=
  [ ⟨0xD0, .byte .bne⟩,
    ⟨0xD1, .byte .cmpIndy⟩,
    ⟨0xD5, .byte .cmpZpx⟩,
    ⟨0xD6, .byte .decZpx⟩,
    ⟨0xD8, .none .cld⟩,
    ⟨0xD9, .word .cmpAbsy⟩,
    ⟨0xDD, .word .cmpAbsx⟩,
    ⟨0xDE, .word .decAbsx⟩ ]

/-- R74, row `Ex`. -/
def opRowE : List OpRow :=
  [ ⟨0xE0, .byte .cpxImm⟩,
    ⟨0xE1, .byte .sbcIndx⟩,
    ⟨0xE4, .byte .cpxZp⟩,
    ⟨0xE5, .byte .sbcZp⟩,
    ⟨0xE6, .byte .incZp⟩,
    ⟨0xE8, .none .inx⟩,
    ⟨0xE9, .byte .sbcImm⟩,
    ⟨0xEA, .none .nop⟩,
    ⟨0xEC, .word .cpxAbs⟩,
    ⟨0xED, .word .sbcAbs⟩,
    ⟨0xEE, .word .incAbs⟩ ]

/-- R74, row `Fx`. -/
def opRowF : List OpRow :=
  [ ⟨0xF0, .byte .beq⟩,
    ⟨0xF1, .byte .sbcIndy⟩,
    ⟨0xF5, .byte .sbcZpx⟩,
    ⟨0xF6, .byte .incZpx⟩,
    ⟨0xF8, .none .sed⟩,
    ⟨0xF9, .word .sbcAbsy⟩,
    ⟨0xFD, .word .sbcAbsx⟩,
    ⟨0xFE, .word .incAbsx⟩ ]

/-- The whole map: 151 assigned bytes. -/
def opTable : List OpRow :=
  opRow0 ++ opRow1 ++ opRow2 ++ opRow3 ++ opRow4 ++ opRow5 ++ opRow6 ++ opRow7 ++
  opRow8 ++ opRow9 ++ opRowA ++ opRowB ++ opRowC ++ opRowD ++ opRowE ++ opRowF

/-- The row of an opcode byte; none for the 105 unassigned bytes (R77). -/
def opLookup (op : Byte) : Option OpRow := opTable.find? fun r => r.opcode == op

/-- Why bytes are no instruction. -/
inductive DecodeError where
  /-- The opcode byte is one of the 105 that spell no instruction (R77). -/
  | unassigned (op : Byte)
  /-- The bytes end before the instruction does. A step never meets it: it reads three bytes. -/
  | truncated
  deriving DecidableEq, Repr

/-- The instruction at the head of a list of bytes, and the bytes after it (R70, R71, R73). -/
def decode : List Byte → Except DecodeError (Instr × List Byte)
  | [] => .error .truncated
  | op :: rest =>
    match opLookup op with
    | none => .error (.unassigned op)
    | some r =>
      match r.make, rest with
      | .none i, rest => .ok (i, rest)
      | .byte f, b :: rest => .ok (f b, rest)
      | .word f, lo :: hi :: rest => .ok (f (wordOf hi lo), rest)
      | _, _ => .error .truncated

/-- The three bytes of a table word, bit 0 the least significant bit of the first byte; bits above `nbits` are 0. -/
def tableBytes (nbits w : Nat) : List Byte :=
  let w := w % 2 ^ nbits
  [BitVec.ofNat 8 w, BitVec.ofNat 8 (w / 256), BitVec.ofNat 8 (w / 65536)]

/-- The instruction the decoder reads from a table word. -/
def decodeTableWord (nbits w : Nat) : Option Instr :=
  match decode (tableBytes nbits w) with
  | .ok (i, _) => some i
  | .error _ => none

/-- The 105 unassigned bytes, as R77 lists them. -/
def unassignedBytes : List Byte :=
  [0x02, 0x03, 0x04, 0x07, 0x0B, 0x0C, 0x0F, 0x12, 0x13, 0x14, 0x17, 0x1A, 0x1B, 0x1C] ++
  [0x1F, 0x22, 0x23, 0x27, 0x2B, 0x2F, 0x32, 0x33, 0x34, 0x37, 0x3A, 0x3B, 0x3C, 0x3F] ++
  [0x42, 0x43, 0x44, 0x47, 0x4B, 0x4F, 0x52, 0x53, 0x54, 0x57, 0x5A, 0x5B, 0x5C, 0x5F] ++
  [0x62, 0x63, 0x64, 0x67, 0x6B, 0x6F, 0x72, 0x73, 0x74, 0x77, 0x7A, 0x7B, 0x7C, 0x7F] ++
  [0x80, 0x82, 0x83, 0x87, 0x89, 0x8B, 0x8F, 0x92, 0x93, 0x97, 0x9B, 0x9C, 0x9E, 0x9F] ++
  [0xA3, 0xA7, 0xAB, 0xAF, 0xB2, 0xB3, 0xB7, 0xBB, 0xBF, 0xC2, 0xC3, 0xC7, 0xCB, 0xCF] ++
  [0xD2, 0xD3, 0xD4, 0xD7, 0xDA, 0xDB, 0xDC, 0xDF, 0xE2, 0xE3, 0xE7, 0xEB, 0xEF, 0xF2] ++
  [0xF3, 0xF4, 0xF7, 0xFA, 0xFB, 0xFC, 0xFF]

/-- The bytes of an instruction, opcode first, low operand byte before high (R71, R74). -/
def encode : Instr → List Byte
  | .brk => [0x00]
  | .oraIndx b => [0x01, b]
  | .oraZp b => [0x05, b]
  | .aslZp b => [0x06, b]
  | .php => [0x08]
  | .oraImm v => [0x09, v]
  | .aslAcc => [0x0A]
  | .oraAbs w => [0x0D, lowByte w, highByte w]
  | .aslAbs w => [0x0E, lowByte w, highByte w]
  | .bpl d => [0x10, d]
  | .oraIndy b => [0x11, b]
  | .oraZpx b => [0x15, b]
  | .aslZpx b => [0x16, b]
  | .clc => [0x18]
  | .oraAbsy w => [0x19, lowByte w, highByte w]
  | .oraAbsx w => [0x1D, lowByte w, highByte w]
  | .aslAbsx w => [0x1E, lowByte w, highByte w]
  | .jsr w => [0x20, lowByte w, highByte w]
  | .andIndx b => [0x21, b]
  | .bitZp b => [0x24, b]
  | .andZp b => [0x25, b]
  | .rolZp b => [0x26, b]
  | .plp => [0x28]
  | .andImm v => [0x29, v]
  | .rolAcc => [0x2A]
  | .bitAbs w => [0x2C, lowByte w, highByte w]
  | .andAbs w => [0x2D, lowByte w, highByte w]
  | .rolAbs w => [0x2E, lowByte w, highByte w]
  | .bmi d => [0x30, d]
  | .andIndy b => [0x31, b]
  | .andZpx b => [0x35, b]
  | .rolZpx b => [0x36, b]
  | .sec => [0x38]
  | .andAbsy w => [0x39, lowByte w, highByte w]
  | .andAbsx w => [0x3D, lowByte w, highByte w]
  | .rolAbsx w => [0x3E, lowByte w, highByte w]
  | .rti => [0x40]
  | .eorIndx b => [0x41, b]
  | .eorZp b => [0x45, b]
  | .lsrZp b => [0x46, b]
  | .pha => [0x48]
  | .eorImm v => [0x49, v]
  | .lsrAcc => [0x4A]
  | .jmpAbs w => [0x4C, lowByte w, highByte w]
  | .eorAbs w => [0x4D, lowByte w, highByte w]
  | .lsrAbs w => [0x4E, lowByte w, highByte w]
  | .bvc d => [0x50, d]
  | .eorIndy b => [0x51, b]
  | .eorZpx b => [0x55, b]
  | .lsrZpx b => [0x56, b]
  | .cli => [0x58]
  | .eorAbsy w => [0x59, lowByte w, highByte w]
  | .eorAbsx w => [0x5D, lowByte w, highByte w]
  | .lsrAbsx w => [0x5E, lowByte w, highByte w]
  | .rts => [0x60]
  | .adcIndx b => [0x61, b]
  | .adcZp b => [0x65, b]
  | .rorZp b => [0x66, b]
  | .pla => [0x68]
  | .adcImm v => [0x69, v]
  | .rorAcc => [0x6A]
  | .jmpInd w => [0x6C, lowByte w, highByte w]
  | .adcAbs w => [0x6D, lowByte w, highByte w]
  | .rorAbs w => [0x6E, lowByte w, highByte w]
  | .bvs d => [0x70, d]
  | .adcIndy b => [0x71, b]
  | .adcZpx b => [0x75, b]
  | .rorZpx b => [0x76, b]
  | .sei => [0x78]
  | .adcAbsy w => [0x79, lowByte w, highByte w]
  | .adcAbsx w => [0x7D, lowByte w, highByte w]
  | .rorAbsx w => [0x7E, lowByte w, highByte w]
  | .staIndx b => [0x81, b]
  | .styZp b => [0x84, b]
  | .staZp b => [0x85, b]
  | .stxZp b => [0x86, b]
  | .dey => [0x88]
  | .txa => [0x8A]
  | .styAbs w => [0x8C, lowByte w, highByte w]
  | .staAbs w => [0x8D, lowByte w, highByte w]
  | .stxAbs w => [0x8E, lowByte w, highByte w]
  | .bcc d => [0x90, d]
  | .staIndy b => [0x91, b]
  | .styZpx b => [0x94, b]
  | .staZpx b => [0x95, b]
  | .stxZpy b => [0x96, b]
  | .tya => [0x98]
  | .staAbsy w => [0x99, lowByte w, highByte w]
  | .txs => [0x9A]
  | .staAbsx w => [0x9D, lowByte w, highByte w]
  | .ldyImm v => [0xA0, v]
  | .ldaIndx b => [0xA1, b]
  | .ldxImm v => [0xA2, v]
  | .ldyZp b => [0xA4, b]
  | .ldaZp b => [0xA5, b]
  | .ldxZp b => [0xA6, b]
  | .tay => [0xA8]
  | .ldaImm v => [0xA9, v]
  | .tax => [0xAA]
  | .ldyAbs w => [0xAC, lowByte w, highByte w]
  | .ldaAbs w => [0xAD, lowByte w, highByte w]
  | .ldxAbs w => [0xAE, lowByte w, highByte w]
  | .bcs d => [0xB0, d]
  | .ldaIndy b => [0xB1, b]
  | .ldyZpx b => [0xB4, b]
  | .ldaZpx b => [0xB5, b]
  | .ldxZpy b => [0xB6, b]
  | .clv => [0xB8]
  | .ldaAbsy w => [0xB9, lowByte w, highByte w]
  | .tsx => [0xBA]
  | .ldyAbsx w => [0xBC, lowByte w, highByte w]
  | .ldaAbsx w => [0xBD, lowByte w, highByte w]
  | .ldxAbsy w => [0xBE, lowByte w, highByte w]
  | .cpyImm v => [0xC0, v]
  | .cmpIndx b => [0xC1, b]
  | .cpyZp b => [0xC4, b]
  | .cmpZp b => [0xC5, b]
  | .decZp b => [0xC6, b]
  | .iny => [0xC8]
  | .cmpImm v => [0xC9, v]
  | .dex => [0xCA]
  | .cpyAbs w => [0xCC, lowByte w, highByte w]
  | .cmpAbs w => [0xCD, lowByte w, highByte w]
  | .decAbs w => [0xCE, lowByte w, highByte w]
  | .bne d => [0xD0, d]
  | .cmpIndy b => [0xD1, b]
  | .cmpZpx b => [0xD5, b]
  | .decZpx b => [0xD6, b]
  | .cld => [0xD8]
  | .cmpAbsy w => [0xD9, lowByte w, highByte w]
  | .cmpAbsx w => [0xDD, lowByte w, highByte w]
  | .decAbsx w => [0xDE, lowByte w, highByte w]
  | .cpxImm v => [0xE0, v]
  | .sbcIndx b => [0xE1, b]
  | .cpxZp b => [0xE4, b]
  | .sbcZp b => [0xE5, b]
  | .incZp b => [0xE6, b]
  | .inx => [0xE8]
  | .sbcImm v => [0xE9, v]
  | .nop => [0xEA]
  | .cpxAbs w => [0xEC, lowByte w, highByte w]
  | .sbcAbs w => [0xED, lowByte w, highByte w]
  | .incAbs w => [0xEE, lowByte w, highByte w]
  | .beq d => [0xF0, d]
  | .sbcIndy b => [0xF1, b]
  | .sbcZpx b => [0xF5, b]
  | .incZpx b => [0xF6, b]
  | .sed => [0xF8]
  | .sbcAbsy w => [0xF9, lowByte w, highByte w]
  | .sbcAbsx w => [0xFD, lowByte w, highByte w]
  | .incAbsx w => [0xFE, lowByte w, highByte w]

end Sys2Proof
end

