-- ==== Sys2Proof/Config.lean ====
section
/-! DEFINITION. What is fixed for the machine and is no state: the parameters of 00_scope.md rule R3. -/

namespace Sys2Proof.Config

/-- `STACK_PAGE` (R3): the base of the stack page `0x0100`–`0x01FF`. -/
def stackPage : Word := 0x0100

/-- `RESET_VECTOR` (R3): the address of the low byte of the reset vector (decision D5; log 8). -/
def resetVector : Word := 0xFFFC

/-- `IRQ_VECTOR` (R3): the address of the low byte of the vector BRK and the hardware interrupt share
(decision D6; log 8). -/
def irqVector : Word := 0xFFFE

/-- `SP_RESET` (R3), an OPEN parameter of the spec. DESIGN CHOICE (log 1), unsafe: the value the spec suggests. The
driver's reset takes the parameter as an argument; only `State.reset` and `Session.move` use this value. -/
def spReset : Byte := 0xFD

/-- `JMP_INDIRECT_PAGE_WRAP` (R3, R112), an OPEN parameter of the spec: whether JMP (indirect) reads its pointer's
high byte from the same page when the pointer's low byte is `0xFF`. DESIGN CHOICE (log 2), safe: a constant without a
body, so that whatever is proved holds of both values. -/
opaque jmpIndirectPageWrap : Bool

end Sys2Proof.Config
end

