-- ==== Sys2Proof/Machine/State.lean ====
section
/-! DEFINITION. All the state of the machine (10_state.md; 00_scope.md section 8 item 2): the five registers, the seven
stored flags, and the bus with its memory map, its contents and its tick count; the reasons a step or a host move can
stop; and the state after reset. Plain data throughout. -/

namespace Sys2Proof.Machine

/-- The seven stored flags of the status register (R19). The reserved bit is no state. -/
structure Status where
  c : Bool
  z : Bool
  i : Bool
  d : Bool
  b : Bool
  v : Bool
  n : Bool
  deriving DecidableEq, Repr

/-- What answers at an address: nothing that retains (the null store of R58, or no store at all, R56), a store that
retains every write (R42, the `FlatRam` of decision D28), or a store that only reads (R42: writes to read-only regions
are dropped). Device-backed stores are out of scope (00_scope.md section 4). -/
inductive Backing where
  | null
  | ram
  | rom
  deriving DecidableEq, Repr

/-- A backing store: a single store, or a router (R55), built as the spec builds it from "an empty router" by repeatedly
attaching `(start_address, store)` pairs, the last attached outermost. Routers nest. -/
inductive Store where
  | leaf (k : Backing)
  | empty
  | attach (router : Store) (start : Word) (child : Store)
  deriving DecidableEq, Repr

/-- The bytes the RAM and ROM stores hold, by address. An address that is not listed reads as `blankByte`. -/
abbrev Memory := List Host.Cell

/-- What a retained byte that is not listed reads as: `0x00`. For an unmapped address that is R41's own value. For a RAM
byte nothing has written it is a DESIGN CHOICE (log 6), unsafe: the contents are part of the open parameter `Bus`. -/
def blankByte : Byte := 0x00

/-- Addresses strictly rising from `lo`, inside the 64 KiB space (R40), and no entry equal to what an unlisted address
reads as. -/
def Memory.risesFrom : Nat → Memory → Bool
  | _, [] => true
  | lo, (a, v) :: rest => decide (lo ≤ a) && decide (a < 65536) && (v != blankByte) && Memory.risesFrom (a + 1) rest

/-- The canonical form: equal memories are equal lists. -/
def Memory.wf (m : Memory) : Bool := Memory.risesFrom 0 m

/-- The address space behind the bus interface: the model's form of the spec's open parameter `Bus` (R3, D28; log 3).
`ticks` counts the bus ticks issued since the last bus reset (R43); it is the model's own field (log 7). -/
structure Bus where
  map : Store
  cells : Memory
  ticks : Nat
  deriving DecidableEq, Repr

/-- The machine: R10's five registers, R19's flags, and the bus. -/
structure State where
  a : Byte
  x : Byte
  y : Byte
  sp : Byte
  pc : Word
  p : Status
  bus : Bus
  deriving DecidableEq, Repr

/-- The one fault (R241). -/
inductive Fault where
  /-- The dispatch fault (R240): raised by `step` on an unassigned opcode byte, which it carries. No state changes. The
  spec's own fault, so safe. -/
  | dispatch (op : Byte)
  deriving DecidableEq, Repr

/-- Why a move is not accepted. No instruction of the table is refused. -/
inductive Refusal where
  /-- Raised by `exec`'s arm of an instruction that has no meaning yet. No arm raises it. Safe. -/
  | notModelled (mnemonic : String)
  /-- Raised by the driver on a step or an interrupt request before the first `reset()` (R28, decision D24; log 19).
  The spec says to refuse it, so safe. -/
  | beforeFirstReset
  /-- Raised by the driver when a router is attached out of ascending start order (R56, decision D22; log 18). The spec
  says to refuse it, so safe. -/
  | attachOrder
  deriving DecidableEq, Repr

/-- What a meaning answers. -/
abbrev Result := Host.Outcome State Fault Refusal

/-- The spec's test fixture `FlatRam` (decision D28) with nothing stored: one RAM store over the whole space. -/
def flatRam : Bus :=
  { map := .attach .empty 0x0000 (.leaf .ram), cells := [], ticks := 0 }

/-- The machine right after reset (R27, R270) on `FlatRam` with nothing placed in it (log 4): A, X, Y and six flags zero
(decision D8; log 9), I set, SP at `SP_RESET` (log 1), PC the word at the reset vector, which reads `0x0000` (R272).
`Laws/Driver.lean` proves that this is what the driver's reset leaves. -/
def State.reset : State :=
  { a := 0x00, x := 0x00, y := 0x00, sp := Config.spReset, pc := 0x0000,
    p := { c := false, z := false, i := true, d := false, b := false, v := false, n := false },
    bus := flatRam }

end Sys2Proof.Machine
end

