-- ==== Sys2Proof/Machine/Bus.lean ====
section
/-! DEFINITION. The address space: the cells a retaining store holds, the router's address resolution (20_memory.md rules
R55 to R58), and the four bus operations the core uses (R41 to R44), all total. -/

namespace Sys2Proof.Machine

/-- The byte held at an address. -/
def Memory.get : Memory → Nat → Byte
  | [], _ => blankByte
  | (a, v) :: rest, k => if a = k then v else Memory.get rest k

/-- The cells with the byte at an address replaced, in canonical form again. -/
def Memory.set : Memory → Nat → Byte → Memory
  | [], k, v => if v = blankByte then [] else [(k, v)]
  | (a, w) :: rest, k, v =>
    if k < a then
      if v = blankByte then (a, w) :: rest else (k, v) :: (a, w) :: rest
    else if k = a then
      if v = blankByte then rest else (k, v) :: rest
    else (a, w) :: Memory.set rest k v

/-- Where an access lands: the start of the region that takes it, the offset inside the store that answers, and what that
store is. -/
structure Slot where
  start : Nat
  offset : Nat
  kind : Backing
  deriving DecidableEq, Repr

/-- The access at address `a` of a region starting at `start`, given where the region's own store puts it (R56: "compute
`offset = a − start`; delegate"). A store that has no place for it is a router that is unmapped there. -/
def Slot.within (start a : Nat) (inner : Option Slot) : Slot :=
  match inner with
  | some sl => { sl with start := start }
  | none => { start := start, offset := a - start, kind := .null }

/-- R56: of the attached entries with `start ≤ a`, the one with the greatest start, the later attached of equals; none
where no entry qualifies. A single store answers at every offset. -/
def Store.locate : Store → Nat → Option Slot
  | .leaf k, a => some { start := 0, offset := a, kind := k }
  | .empty, _ => none
  | .attach router start child, a =>
    let inner := child.locate (a - start.toNat)
    match router.locate a with
    | none => if start.toNat ≤ a then some (Slot.within start.toNat a inner) else none
    | some sl =>
      if start.toNat ≤ a ∧ sl.start ≤ start.toNat then some (Slot.within start.toNat a inner) else some sl

/-- What backs an address. An unmapped one behaves as the null store (R56, R58). -/
def Store.backing (st : Store) (a : Nat) : Backing :=
  match st.locate a with
  | some sl => sl.kind
  | none => .null

/-- The entries attached to a router, in the order of attachment. -/
def Store.entries : Store → List (Word × Store)
  | .attach router start child => router.entries ++ [(start, child)]
  | _ => []

/-- The store is a router: built from the empty one. -/
def Store.isRouter : Store → Bool
  | .leaf _ => false
  | .empty => true
  | .attach router _ _ => router.isRouter

/-- The start of the entry attached last, 0 where none is. -/
def Store.lastStart : Store → Nat
  | .attach _ start _ => start.toNat
  | _ => 0

/-- The platform's obligation of R56: regions attached in ascending start order (equal starts are legal), at every level. -/
def Store.wf : Store → Bool
  | .leaf _ => true
  | .empty => true
  | .attach router start child =>
    router.isRouter && decide (router.lastStart ≤ start.toNat) && router.wf && child.wf

/-- R57: a bus tick goes to every store, in order of declaration. None of the stores the spec describes has a device
state, so each is left as it was (R58; D28). -/
def Store.tick : Store → Store
  | .leaf k => .leaf k
  | .empty => .empty
  | .attach router start child => .attach router.tick start child.tick

/-- R57: a bus reset goes to every store, in order of declaration. The null store's does nothing (R58) and `FlatRam`'s does
nothing (D28); that a RAM or ROM keeps its bytes is a DESIGN CHOICE (log 5), unsafe. -/
def Store.reset : Store → Store
  | .leaf k => .leaf k
  | .empty => .empty
  | .attach router start child => .attach router.reset start child.reset

/-- A store of this kind holds bytes. -/
def Backing.retains : Backing → Bool
  | .null => false
  | .ram | .rom => true

/-- R41: total and pure; an unmapped read gives 0. -/
def Bus.read (b : Bus) (a : Word) : Byte :=
  match b.map.backing a.toNat with
  | .null => 0x00
  | .ram | .rom => Memory.get b.cells a.toNat

/-- R42: accepted for every address; dropped where nothing retains it or the region is read-only. -/
def Bus.write (b : Bus) (a : Word) (v : Byte) : Bus :=
  match b.map.backing a.toNat with
  | .ram => { b with cells := Memory.set b.cells a.toNat v }
  | .null | .rom => b

/-- R43. -/
def Bus.tick (b : Bus) : Bus := { b with map := b.map.tick, ticks := b.ticks + 1 }

/-- R44. -/
def Bus.reset (b : Bus) : Bus := { b with map := b.map.reset, ticks := 0 }

/-- The bus is in order: cells canonical and held only where a store retains them, and the map legal. -/
def Bus.wf (b : Bus) : Bool :=
  Memory.wf b.cells && b.map.wf && b.cells.all fun cell => (b.map.backing cell.1).retains

/-- The invariant of the machine: its bus is in order. The registers and flags have no illegal value. -/
def State.wf (s : State) : Bool := s.bus.wf

/-- `MemRead(addr, 1)` (R45). -/
def State.read (s : State) (a : Word) : Byte := s.bus.read a

/-- `MemWrite(addr, 1, v)` (R46). -/
def State.write (s : State) (a : Word) (v : Byte) : State := { s with bus := s.bus.write a v }

end Sys2Proof.Machine
end

