-- ==== Sys2Proof/Machine/Flags.lean ====
section
/-! DEFINITION. The status byte (10_state.md rules R20, R21), the NZ helper and the ALU (41_alu.md rules R120 to R123),
and the one-bit shifts and rotates (R160 to R163). -/

namespace Sys2Proof.Machine

/-- R20: the status byte as read, `{N, V, 1, B, D, I, Z, C}`. -/
def Status.toByte (p : Status) : Byte :=
  BitVec.ofBool p.n ++ BitVec.ofBool p.v ++ 1#1 ++ BitVec.ofBool p.b ++
    BitVec.ofBool p.d ++ BitVec.ofBool p.i ++ BitVec.ofBool p.z ++ BitVec.ofBool p.c

/-- R21: the wholesale load; bit 5 is discarded. -/
def Status.ofByte (v : Byte) : Status :=
  { c := v.getLsbD 0, z := v.getLsbD 1, i := v.getLsbD 2, d := v.getLsbD 3, b := v.getLsbD 4,
    v := v.getLsbD 6, n := v.getLsbD 7 }

/-- R120: `SetNZ(v)`. -/
def State.setNZ (s : State) (v : Byte) : State :=
  { s with p := { s.p with z := v == 0, n := v.getLsbD 7 } }

/-- R121: `AluAdd(v)`, computed exactly and narrowed at the end. Decimal is neither read nor written (R127). -/
def State.aluAdd (s : State) (v : Byte) : State :=
  let sum := s.a.toNat + v.toNat + s.p.c.toNat
  let r : Byte := BitVec.ofNat 8 sum
  let overflow := (s.a.getLsbD 7 == v.getLsbD 7) && (r.getLsbD 7 != s.a.getLsbD 7)
  State.setNZ { s with a := r, p := { s.p with c := decide (256 ≤ sum), v := overflow } } r

/-- R122: `AluSubtract(v)`. -/
def State.aluSubtract (s : State) (v : Byte) : State := s.aluAdd (v ^^^ 0xFF)

/-- R123: `AluCompare(r, v)`: no register, no incoming carry, no overflow. -/
def State.aluCompare (s : State) (r v : Byte) : State :=
  State.setNZ { s with p := { s.p with c := decide (v.toNat ≤ r.toNat) } } (r - v)

/-- R160's `op1`: the new value and the bit shifted out. -/
def aslBits (old : Byte) : Byte × Bool := (old <<< 1, old.getLsbD 7)

/-- R161's `op1`. -/
def lsrBits (old : Byte) : Byte × Bool := (old >>> 1, old.getLsbD 0)

/-- R162's `op1`: the old Carry enters bit 0. -/
def rolBits (old : Byte) (c : Bool) : Byte × Bool :=
  ((old <<< 1) ||| (BitVec.ofBool c).setWidth 8, old.getLsbD 7)

/-- R163's `op1`: the old Carry enters bit 7. -/
def rorBits (old : Byte) (c : Bool) : Byte × Bool :=
  ((old >>> 1) ||| ((BitVec.ofBool c).setWidth 8 <<< 7), old.getLsbD 0)

end Sys2Proof.Machine
end

