-- ==== Sys2Proof/Machine/Ops.lean ====
section
/-! DEFINITION. The shared operations over memory and registers: 16-bit reads (20_memory.md rules R48, R49), the stack
(R50, R51), taking an interrupt and returning from one (60_exceptions.md rule R243, 49_system_flags_nop.md rule R221),
and the bytes a fetch reads (R100). -/

namespace Sys2Proof.Machine

/-- R17, R18: PC moved past `n` bytes of the instruction stream, modulo 65536. -/
def State.past (s : State) (n : Nat) : State := { s with pc := s.pc + BitVec.ofNat 16 n }

/-- R48: `MemReadWord(addr)`. -/
def State.readWord (s : State) (a : Word) : Word := wordOf (s.read (a + 1)) (s.read a)

/-- R49: `MemReadWordZP(zp)`: both bytes in the zero page. -/
def State.readWordZp (s : State) (zp : Byte) : Word := wordOf (s.read (zext16 (zp + 1))) (s.read (zext16 zp))

/-- R16: the address the stack pointer denotes. -/
def stackAddr (sp : Byte) : Word := Config.stackPage + zext16 sp

/-- R50: `Push(v)`: write, then decrement. -/
def State.push (s : State) (v : Byte) : State := { s.write (stackAddr s.sp) v with sp := s.sp - 1 }

/-- R51: the byte `Pull()` returns. -/
def State.pulledByte (s : State) : Byte := s.read (stackAddr (s.sp + 1))

/-- R51: the state `Pull()` leaves; memory is not changed. -/
def State.afterPull (s : State) : State := { s with sp := s.sp + 1 }

/-- A word pushed high byte first (R201, R243). -/
def State.pushWord (s : State) (w : Word) : State := (s.push (highByte w)).push (lowByte w)

/-- The word that two pulls return, low byte first (R202, R221). -/
def State.pulledWord (s : State) : Word := wordOf s.afterPull.pulledByte s.pulledByte

/-- R243: `InterruptEntry(sw)`: Break written, PC and then the status byte pushed (I still the old one), I set, PC loaded
from the vector after the pushes. Decimal is left alone (decision D25). That the STORED Break is written is the spec's
decision D12 (log 11). -/
def State.interruptEntry (s : State) (sw : Bool) : State :=
  let s := { s with p := { s.p with b := sw } }
  let s := s.pushWord s.pc
  let s := s.push s.p.toByte
  let s := { s with p := { s.p with i := true } }
  { s with pc := s.readWord Config.irqVector }

/-- R221: the status byte, then PC low, then PC high, with no plus one. -/
def State.interruptReturn (s : State) : State :=
  let s := { s.afterPull with p := Status.ofByte s.pulledByte }
  { s.afterPull.afterPull with pc := s.pulledWord }

/-- The bytes of the instruction stream from PC on, as many as the longest instruction has, modulo 65536 (R70, R100). -/
def State.stream (s : State) : List Byte := [s.read s.pc, s.read (s.pc + 1), s.read (s.pc + 2)]

/-- A byte placed in the bus from outside the machine, as a memory image is: it stays whether or not a write of the core
would be retained there. -/
def State.place (s : State) (a : Word) (v : Byte) : State :=
  { s with bus := { s.bus with cells := Memory.set s.bus.cells a.toNat v } }

/-- R43: the one bus tick of a step that completes, after the instruction's last effect. A stop takes none. -/
def withTick (r : Result) : Result :=
  match r with
  | .next t => .next { t with bus := t.bus.tick }
  | .fault f => .fault f
  | .refused why => .refused why

end Sys2Proof.Machine
end

