-- ==== Sys2Proof/Machine/Operands.lean ====
section
/-! DEFINITION. The addressing-mode resolver (40_addressing_modes.md), every operand form. The operand bytes are already
in the instruction; PC is moved past them by `State.past` with the form's length. No mode writes a flag, a register other
than PC, or memory, and none can fault. -/

namespace Sys2Proof.Machine

/-- R104 to R111: the effective address. The index registers are those before the instruction's own effect (R117). -/
def effAddr (m : AddrMode) (s : State) : Word :=
  match m with
  | .zp b => zext16 b
  | .zpx b => zext16 (b + s.x)
  | .zpy b => zext16 (b + s.y)
  | .abs w => w
  | .absx w => w + zext16 s.x
  | .absy w => w + zext16 s.y
  | .indx b => s.readWordZp (b + s.x)
  | .indy b => s.readWordZp b + zext16 s.y

/-- R102: `ResolveValue(fmt)`. -/
def operandValue (o : Operand) (s : State) : Byte :=
  match o with
  | .imm v => v
  | .mem m => s.read (effAddr m s)

/-- R102, R113: the byte a read-modify-write instruction reads. -/
def targetValue (t : Target) (s : State) : Byte :=
  match t with
  | .acc => s.a
  | .mem m => s.read (effAddr m s)

/-- R102, R113: the byte written back, to the accumulator in place or to the resolved address. -/
def targetWrite (t : Target) (v : Byte) (s : State) : State :=
  match t with
  | .acc => { s with a := v }
  | .mem m => s.write (effAddr m s) v

/-- R112: the target of JMP (indirect), for either value of the open parameter. -/
def jumpTarget (pageWrap : Bool) (ptr : Word) (s : State) : Word :=
  if lowByte ptr == 0xFF && pageWrap then
    wordOf (s.read (wordOf (highByte ptr) 0x00)) (s.read ptr)
  else s.readWord ptr

end Sys2Proof.Machine
end

