-- ==== Sys2Proof/Machine/Arithmetic.lean ====
section
/-! DEFINITION. Addition, subtraction and comparison (46_arithmetic.md rules R180 to R184), each by its ALU helper (R121 to R123). -/

namespace Sys2Proof.Machine

/-- R180: ADC with any operand. -/
def adc (o : Operand) (s : State) : Result := .next ((s.past o.length).aluAdd (operandValue o s))

/-- R181: SBC with any operand. -/
def sbc (o : Operand) (s : State) : Result := .next ((s.past o.length).aluSubtract (operandValue o s))

/-- R182: CMP with any operand. -/
def cmpWith (o : Operand) (s : State) : Result := .next ((s.past o.length).aluCompare s.a (operandValue o s))

/-- R183: CPX with any operand. -/
def cpx (o : Operand) (s : State) : Result := .next ((s.past o.length).aluCompare s.x (operandValue o s))

/-- R184: CPY with any operand. -/
def cpy (o : Operand) (s : State) : Result := .next ((s.past o.length).aluCompare s.y (operandValue o s))

/-- R180 ADC, indx `61`. -/
def execAdcIndx (b : Byte) (s : State) : Result := adc (.mem (.indx b)) s

/-- R180 ADC, zp `65`. -/
def execAdcZp (b : Byte) (s : State) : Result := adc (.mem (.zp b)) s

/-- R180 ADC, imm `69`. -/
def execAdcImm (v : Byte) (s : State) : Result := adc (.imm v) s

/-- R180 ADC, abs `6D`. -/
def execAdcAbs (w : Word) (s : State) : Result := adc (.mem (.abs w)) s

/-- R180 ADC, indy `71`. -/
def execAdcIndy (b : Byte) (s : State) : Result := adc (.mem (.indy b)) s

/-- R180 ADC, zpx `75`. -/
def execAdcZpx (b : Byte) (s : State) : Result := adc (.mem (.zpx b)) s

/-- R180 ADC, absy `79`. -/
def execAdcAbsy (w : Word) (s : State) : Result := adc (.mem (.absy w)) s

/-- R180 ADC, absx `7D`. -/
def execAdcAbsx (w : Word) (s : State) : Result := adc (.mem (.absx w)) s

/-- R181 SBC, indx `E1`. -/
def execSbcIndx (b : Byte) (s : State) : Result := sbc (.mem (.indx b)) s

/-- R181 SBC, zp `E5`. -/
def execSbcZp (b : Byte) (s : State) : Result := sbc (.mem (.zp b)) s

/-- R181 SBC, imm `E9`. -/
def execSbcImm (v : Byte) (s : State) : Result := sbc (.imm v) s

/-- R181 SBC, abs `ED`. -/
def execSbcAbs (w : Word) (s : State) : Result := sbc (.mem (.abs w)) s

/-- R181 SBC, indy `F1`. -/
def execSbcIndy (b : Byte) (s : State) : Result := sbc (.mem (.indy b)) s

/-- R181 SBC, zpx `F5`. -/
def execSbcZpx (b : Byte) (s : State) : Result := sbc (.mem (.zpx b)) s

/-- R181 SBC, absy `F9`. -/
def execSbcAbsy (w : Word) (s : State) : Result := sbc (.mem (.absy w)) s

/-- R181 SBC, absx `FD`. -/
def execSbcAbsx (w : Word) (s : State) : Result := sbc (.mem (.absx w)) s

/-- R182 CMP, indx `C1`. -/
def execCmpIndx (b : Byte) (s : State) : Result := cmpWith (.mem (.indx b)) s

/-- R182 CMP, zp `C5`. -/
def execCmpZp (b : Byte) (s : State) : Result := cmpWith (.mem (.zp b)) s

/-- R182 CMP, imm `C9`. -/
def execCmpImm (v : Byte) (s : State) : Result := cmpWith (.imm v) s

/-- R182 CMP, abs `CD`. -/
def execCmpAbs (w : Word) (s : State) : Result := cmpWith (.mem (.abs w)) s

/-- R182 CMP, indy `D1`. -/
def execCmpIndy (b : Byte) (s : State) : Result := cmpWith (.mem (.indy b)) s

/-- R182 CMP, zpx `D5`. -/
def execCmpZpx (b : Byte) (s : State) : Result := cmpWith (.mem (.zpx b)) s

/-- R182 CMP, absy `D9`. -/
def execCmpAbsy (w : Word) (s : State) : Result := cmpWith (.mem (.absy w)) s

/-- R182 CMP, absx `DD`. -/
def execCmpAbsx (w : Word) (s : State) : Result := cmpWith (.mem (.absx w)) s

/-- R183 CPX, imm `E0`. -/
def execCpxImm (v : Byte) (s : State) : Result := cpx (.imm v) s

/-- R183 CPX, zp `E4`. -/
def execCpxZp (b : Byte) (s : State) : Result := cpx (.mem (.zp b)) s

/-- R183 CPX, abs `EC`. -/
def execCpxAbs (w : Word) (s : State) : Result := cpx (.mem (.abs w)) s

/-- R184 CPY, imm `C0`. -/
def execCpyImm (v : Byte) (s : State) : Result := cpy (.imm v) s

/-- R184 CPY, zp `C4`. -/
def execCpyZp (b : Byte) (s : State) : Result := cpy (.mem (.zp b)) s

/-- R184 CPY, abs `CC`. -/
def execCpyAbs (w : Word) (s : State) : Result := cpy (.mem (.abs w)) s

end Sys2Proof.Machine
end

