-- ==== Sys2Proof/Machine/Control.lean ====
section
/-! DEFINITION. Jumps, subroutines and branches (48_control_transfer.md rules R200 to R211). No flag, A, X or Y is written. -/

namespace Sys2Proof.Machine

/-- R203: the displacement byte is always consumed; where the condition holds it is added to the PC that already points
past the instruction. -/
def branch (cond : Bool) (d : Byte) (s : State) : Result :=
  let s := s.past 2
  .next (if cond then { s with pc := s.pc + sext16 d } else s)

/-- R200 JMP, abs `4C`. -/
def execJmpAbs (w : Word) (s : State) : Result := .next { s.past 3 with pc := w }

/-- R200 JMP, ind `6C`, by R112 with the open parameter as Config leaves it (log 2). -/
def execJmpInd (w : Word) (s : State) : Result :=
  .next { s.past 3 with pc := jumpTarget Config.jmpIndirectPageWrap w s }

/-- R201 JSR, abs `20`: the return address is that of the instruction's own last byte. -/
def execJsr (w : Word) (s : State) : Result :=
  let s := s.past 3
  .next { s.pushWord (s.pc - 1) with pc := w }

/-- R202 RTS, imp `60`. -/
def execRts (s : State) : Result := .next { s.afterPull.afterPull with pc := s.pulledWord + 1 }

/-- R204 BCC, rel `90`. -/
def execBcc (d : Byte) (s : State) : Result := branch (!s.p.c) d s

/-- R205 BCS, rel `B0`. -/
def execBcs (d : Byte) (s : State) : Result := branch s.p.c d s

/-- R206 BEQ, rel `F0`. -/
def execBeq (d : Byte) (s : State) : Result := branch s.p.z d s

/-- R207 BMI, rel `30`. -/
def execBmi (d : Byte) (s : State) : Result := branch s.p.n d s

/-- R208 BNE, rel `D0`. -/
def execBne (d : Byte) (s : State) : Result := branch (!s.p.z) d s

/-- R209 BPL, rel `10`. -/
def execBpl (d : Byte) (s : State) : Result := branch (!s.p.n) d s

/-- R210 BVC, rel `50`. -/
def execBvc (d : Byte) (s : State) : Result := branch (!s.p.v) d s

/-- R211 BVS, rel `70`. -/
def execBvs (d : Byte) (s : State) : Result := branch s.p.v d s

end Sys2Proof.Machine
end

