-- ==== Sys2Proof/Machine/IncDec.lean ====
section
/-! DEFINITION. Increment and decrement (47_inc_dec.md rules R190 to R195): modulo 256, N and Z only, never Carry or Overflow. -/

namespace Sys2Proof.Machine

/-- Memory read, changed and written back once. -/
def modifyByte (f : Byte → Byte) (m : AddrMode) (s : State) : Result :=
  let new := f (s.read (effAddr m s))
  .next (((s.past m.length).write (effAddr m s) new).setNZ new)

/-- R190: INC on any address. -/
def inc (m : AddrMode) (s : State) : Result := modifyByte (fun v => v + 1) m s

/-- R191: DEC on any address. -/
def dec (m : AddrMode) (s : State) : Result := modifyByte (fun v => v - 1) m s

/-- R190 INC, zp `E6`. -/
def execIncZp (b : Byte) (s : State) : Result := inc (.zp b) s

/-- R190 INC, abs `EE`. -/
def execIncAbs (w : Word) (s : State) : Result := inc (.abs w) s

/-- R190 INC, zpx `F6`. -/
def execIncZpx (b : Byte) (s : State) : Result := inc (.zpx b) s

/-- R190 INC, absx `FE`. -/
def execIncAbsx (w : Word) (s : State) : Result := inc (.absx w) s

/-- R191 DEC, zp `C6`. -/
def execDecZp (b : Byte) (s : State) : Result := dec (.zp b) s

/-- R191 DEC, abs `CE`. -/
def execDecAbs (w : Word) (s : State) : Result := dec (.abs w) s

/-- R191 DEC, zpx `D6`. -/
def execDecZpx (b : Byte) (s : State) : Result := dec (.zpx b) s

/-- R191 DEC, absx `DE`. -/
def execDecAbsx (w : Word) (s : State) : Result := dec (.absx w) s

/-- R192 INX, imp `E8`. -/
def execInx (s : State) : Result := .next (State.setNZ { s.past 1 with x := s.x + 1 } (s.x + 1))

/-- R193 INY, imp `C8`. -/
def execIny (s : State) : Result := .next (State.setNZ { s.past 1 with y := s.y + 1 } (s.y + 1))

/-- R194 DEX, imp `CA`. -/
def execDex (s : State) : Result := .next (State.setNZ { s.past 1 with x := s.x - 1 } (s.x - 1))

/-- R195 DEY, imp `88`. -/
def execDey (s : State) : Result := .next (State.setNZ { s.past 1 with y := s.y - 1 } (s.y - 1))

end Sys2Proof.Machine
end

