-- ==== Sys2Proof/Machine/LoadStore.lean ====
section
/-! DEFINITION. Loads, stores and register transfers (42_load_store_transfer.md rules R130 to R141). A load sets N and Z; a store writes no
flag; a transfer sets N and Z except TXS. -/

namespace Sys2Proof.Machine

/-- R130: LDA on any operand. -/
def lda (o : Operand) (s : State) : Result :=
  let v := operandValue o s
  .next (State.setNZ { s.past o.length with a := v } v)

/-- R131: LDX on any operand. -/
def ldx (o : Operand) (s : State) : Result :=
  let v := operandValue o s
  .next (State.setNZ { s.past o.length with x := v } v)

/-- R132: LDY on any operand. -/
def ldy (o : Operand) (s : State) : Result :=
  let v := operandValue o s
  .next (State.setNZ { s.past o.length with y := v } v)

/-- R133: STA to any address. -/
def sta (m : AddrMode) (s : State) : Result := .next ((s.past m.length).write (effAddr m s) s.a)

/-- R134: STX to any address. -/
def stx (m : AddrMode) (s : State) : Result := .next ((s.past m.length).write (effAddr m s) s.x)

/-- R135: STY to any address. -/
def sty (m : AddrMode) (s : State) : Result := .next ((s.past m.length).write (effAddr m s) s.y)

/-- R130 LDA, indx `A1`. -/
def execLdaIndx (b : Byte) (s : State) : Result := lda (.mem (.indx b)) s

/-- R130 LDA, zp `A5`. -/
def execLdaZp (b : Byte) (s : State) : Result := lda (.mem (.zp b)) s

/-- R130 LDA, imm `A9`. -/
def execLdaImm (v : Byte) (s : State) : Result := lda (.imm v) s

/-- R130 LDA, abs `AD`. -/
def execLdaAbs (w : Word) (s : State) : Result := lda (.mem (.abs w)) s

/-- R130 LDA, indy `B1`. -/
def execLdaIndy (b : Byte) (s : State) : Result := lda (.mem (.indy b)) s

/-- R130 LDA, zpx `B5`. -/
def execLdaZpx (b : Byte) (s : State) : Result := lda (.mem (.zpx b)) s

/-- R130 LDA, absy `B9`. -/
def execLdaAbsy (w : Word) (s : State) : Result := lda (.mem (.absy w)) s

/-- R130 LDA, absx `BD`. -/
def execLdaAbsx (w : Word) (s : State) : Result := lda (.mem (.absx w)) s

/-- R131 LDX, imm `A2`. -/
def execLdxImm (v : Byte) (s : State) : Result := ldx (.imm v) s

/-- R131 LDX, zp `A6`. -/
def execLdxZp (b : Byte) (s : State) : Result := ldx (.mem (.zp b)) s

/-- R131 LDX, abs `AE`. -/
def execLdxAbs (w : Word) (s : State) : Result := ldx (.mem (.abs w)) s

/-- R131 LDX, zpy `B6`. -/
def execLdxZpy (b : Byte) (s : State) : Result := ldx (.mem (.zpy b)) s

/-- R131 LDX, absy `BE`. -/
def execLdxAbsy (w : Word) (s : State) : Result := ldx (.mem (.absy w)) s

/-- R132 LDY, imm `A0`. -/
def execLdyImm (v : Byte) (s : State) : Result := ldy (.imm v) s

/-- R132 LDY, zp `A4`. -/
def execLdyZp (b : Byte) (s : State) : Result := ldy (.mem (.zp b)) s

/-- R132 LDY, abs `AC`. -/
def execLdyAbs (w : Word) (s : State) : Result := ldy (.mem (.abs w)) s

/-- R132 LDY, zpx `B4`. -/
def execLdyZpx (b : Byte) (s : State) : Result := ldy (.mem (.zpx b)) s

/-- R132 LDY, absx `BC`. -/
def execLdyAbsx (w : Word) (s : State) : Result := ldy (.mem (.absx w)) s

/-- R133 STA, indx `81`. -/
def execStaIndx (b : Byte) (s : State) : Result := sta (.indx b) s

/-- R133 STA, zp `85`. -/
def execStaZp (b : Byte) (s : State) : Result := sta (.zp b) s

/-- R133 STA, abs `8D`. -/
def execStaAbs (w : Word) (s : State) : Result := sta (.abs w) s

/-- R133 STA, indy `91`. -/
def execStaIndy (b : Byte) (s : State) : Result := sta (.indy b) s

/-- R133 STA, zpx `95`. -/
def execStaZpx (b : Byte) (s : State) : Result := sta (.zpx b) s

/-- R133 STA, absy `99`. -/
def execStaAbsy (w : Word) (s : State) : Result := sta (.absy w) s

/-- R133 STA, absx `9D`. -/
def execStaAbsx (w : Word) (s : State) : Result := sta (.absx w) s

/-- R134 STX, zp `86`. -/
def execStxZp (b : Byte) (s : State) : Result := stx (.zp b) s

/-- R134 STX, abs `8E`. -/
def execStxAbs (w : Word) (s : State) : Result := stx (.abs w) s

/-- R134 STX, zpy `96`. -/
def execStxZpy (b : Byte) (s : State) : Result := stx (.zpy b) s

/-- R135 STY, zp `84`. -/
def execStyZp (b : Byte) (s : State) : Result := sty (.zp b) s

/-- R135 STY, abs `8C`. -/
def execStyAbs (w : Word) (s : State) : Result := sty (.abs w) s

/-- R135 STY, zpx `94`. -/
def execStyZpx (b : Byte) (s : State) : Result := sty (.zpx b) s

/-- R136 TAX, imp `AA`. -/
def execTax (s : State) : Result := .next (State.setNZ { s.past 1 with x := s.a } s.a)

/-- R137 TAY, imp `A8`. -/
def execTay (s : State) : Result := .next (State.setNZ { s.past 1 with y := s.a } s.a)

/-- R138 TXA, imp `8A`. -/
def execTxa (s : State) : Result := .next (State.setNZ { s.past 1 with a := s.x } s.x)

/-- R139 TYA, imp `98`. -/
def execTya (s : State) : Result := .next (State.setNZ { s.past 1 with a := s.y } s.y)

/-- R140 TSX, imp `BA`. -/
def execTsx (s : State) : Result := .next (State.setNZ { s.past 1 with x := s.sp } s.sp)

/-- R141 TXS, imp `9A`. -/
def execTxs (s : State) : Result := .next { s.past 1 with sp := s.x }

end Sys2Proof.Machine
end

