-- ==== Sys2Proof/Machine/Logic.lean ====
section
/-! DEFINITION. Logic and the bit test (45_logic.md rules R170 to R173). Carry and, but for BIT, Overflow are left alone. -/

namespace Sys2Proof.Machine

/-- A becomes a value, N and Z follow it. -/
def logic (o : Operand) (r : Byte) (s : State) : Result :=
  .next (State.setNZ { s.past o.length with a := r } r)

/-- R170: AND with any operand. -/
def andWith (o : Operand) (s : State) : Result := logic o (s.a &&& operandValue o s) s

/-- R171: ORA with any operand. -/
def oraWith (o : Operand) (s : State) : Result := logic o (s.a ||| operandValue o s) s

/-- R172: EOR with any operand. -/
def eorWith (o : Operand) (s : State) : Result := logic o (s.a ^^^ operandValue o s) s

/-- R173: BIT: N and V from the operand's bits 7 and 6, Z from the and; A is not written. -/
def bitTest (o : Operand) (s : State) : Result :=
  let v := operandValue o s
  .next { s.past o.length with p := { s.p with n := v.getLsbD 7, v := v.getLsbD 6, z := (s.a &&& v) == 0 } }

/-- R170 AND, indx `21`. -/
def execAndIndx (b : Byte) (s : State) : Result := andWith (.mem (.indx b)) s

/-- R170 AND, zp `25`. -/
def execAndZp (b : Byte) (s : State) : Result := andWith (.mem (.zp b)) s

/-- R170 AND, imm `29`. -/
def execAndImm (v : Byte) (s : State) : Result := andWith (.imm v) s

/-- R170 AND, abs `2D`. -/
def execAndAbs (w : Word) (s : State) : Result := andWith (.mem (.abs w)) s

/-- R170 AND, indy `31`. -/
def execAndIndy (b : Byte) (s : State) : Result := andWith (.mem (.indy b)) s

/-- R170 AND, zpx `35`. -/
def execAndZpx (b : Byte) (s : State) : Result := andWith (.mem (.zpx b)) s

/-- R170 AND, absy `39`. -/
def execAndAbsy (w : Word) (s : State) : Result := andWith (.mem (.absy w)) s

/-- R170 AND, absx `3D`. -/
def execAndAbsx (w : Word) (s : State) : Result := andWith (.mem (.absx w)) s

/-- R171 ORA, indx `01`. -/
def execOraIndx (b : Byte) (s : State) : Result := oraWith (.mem (.indx b)) s

/-- R171 ORA, zp `05`. -/
def execOraZp (b : Byte) (s : State) : Result := oraWith (.mem (.zp b)) s

/-- R171 ORA, imm `09`. -/
def execOraImm (v : Byte) (s : State) : Result := oraWith (.imm v) s

/-- R171 ORA, abs `0D`. -/
def execOraAbs (w : Word) (s : State) : Result := oraWith (.mem (.abs w)) s

/-- R171 ORA, indy `11`. -/
def execOraIndy (b : Byte) (s : State) : Result := oraWith (.mem (.indy b)) s

/-- R171 ORA, zpx `15`. -/
def execOraZpx (b : Byte) (s : State) : Result := oraWith (.mem (.zpx b)) s

/-- R171 ORA, absy `19`. -/
def execOraAbsy (w : Word) (s : State) : Result := oraWith (.mem (.absy w)) s

/-- R171 ORA, absx `1D`. -/
def execOraAbsx (w : Word) (s : State) : Result := oraWith (.mem (.absx w)) s

/-- R172 EOR, indx `41`. -/
def execEorIndx (b : Byte) (s : State) : Result := eorWith (.mem (.indx b)) s

/-- R172 EOR, zp `45`. -/
def execEorZp (b : Byte) (s : State) : Result := eorWith (.mem (.zp b)) s

/-- R172 EOR, imm `49`. -/
def execEorImm (v : Byte) (s : State) : Result := eorWith (.imm v) s

/-- R172 EOR, abs `4D`. -/
def execEorAbs (w : Word) (s : State) : Result := eorWith (.mem (.abs w)) s

/-- R172 EOR, indy `51`. -/
def execEorIndy (b : Byte) (s : State) : Result := eorWith (.mem (.indy b)) s

/-- R172 EOR, zpx `55`. -/
def execEorZpx (b : Byte) (s : State) : Result := eorWith (.mem (.zpx b)) s

/-- R172 EOR, absy `59`. -/
def execEorAbsy (w : Word) (s : State) : Result := eorWith (.mem (.absy w)) s

/-- R172 EOR, absx `5D`. -/
def execEorAbsx (w : Word) (s : State) : Result := eorWith (.mem (.absx w)) s

/-- R173 BIT, zp `24`. -/
def execBitZp (b : Byte) (s : State) : Result := bitTest (.mem (.zp b)) s

/-- R173 BIT, abs `2C`. -/
def execBitAbs (w : Word) (s : State) : Result := bitTest (.mem (.abs w)) s

end Sys2Proof.Machine
end

