-- ==== Sys2Proof/Machine/Shift.lean ====
section
/-! DEFINITION. Shifts and rotates (44_shift_rotate.md rules R160 to R163): on the accumulator, or read-modify-write on a resolved
address, one read and one write. -/

namespace Sys2Proof.Machine

/-- The common frame of 44_shift_rotate.md: Carry becomes the bit shifted out, the new value goes back where the old one
was, N and Z follow it. -/
def shift (bits : Byte → Byte × Bool) (t : Target) (s : State) : Result :=
  let r := bits (targetValue t s)
  let s1 := { s.past t.length with p := { s.p with c := r.2 } }
  .next ((targetWrite t r.1 s1).setNZ r.1)

/-- R160: ASL on any target. -/
def asl (t : Target) (s : State) : Result := shift aslBits t s

/-- R161: LSR on any target. -/
def lsr (t : Target) (s : State) : Result := shift lsrBits t s

/-- R162: ROL on any target. -/
def rol (t : Target) (s : State) : Result := shift (fun old => rolBits old s.p.c) t s

/-- R163: ROR on any target. -/
def ror (t : Target) (s : State) : Result := shift (fun old => rorBits old s.p.c) t s

/-- R160 ASL, zp `06`. -/
def execAslZp (b : Byte) (s : State) : Result := asl (.mem (.zp b)) s

/-- R160 ASL, acc `0A`. -/
def execAslAcc (s : State) : Result := asl .acc s

/-- R160 ASL, abs `0E`. -/
def execAslAbs (w : Word) (s : State) : Result := asl (.mem (.abs w)) s

/-- R160 ASL, zpx `16`. -/
def execAslZpx (b : Byte) (s : State) : Result := asl (.mem (.zpx b)) s

/-- R160 ASL, absx `1E`. -/
def execAslAbsx (w : Word) (s : State) : Result := asl (.mem (.absx w)) s

/-- R161 LSR, zp `46`. -/
def execLsrZp (b : Byte) (s : State) : Result := lsr (.mem (.zp b)) s

/-- R161 LSR, acc `4A`. -/
def execLsrAcc (s : State) : Result := lsr .acc s

/-- R161 LSR, abs `4E`. -/
def execLsrAbs (w : Word) (s : State) : Result := lsr (.mem (.abs w)) s

/-- R161 LSR, zpx `56`. -/
def execLsrZpx (b : Byte) (s : State) : Result := lsr (.mem (.zpx b)) s

/-- R161 LSR, absx `5E`. -/
def execLsrAbsx (w : Word) (s : State) : Result := lsr (.mem (.absx w)) s

/-- R162 ROL, zp `26`. -/
def execRolZp (b : Byte) (s : State) : Result := rol (.mem (.zp b)) s

/-- R162 ROL, acc `2A`. -/
def execRolAcc (s : State) : Result := rol .acc s

/-- R162 ROL, abs `2E`. -/
def execRolAbs (w : Word) (s : State) : Result := rol (.mem (.abs w)) s

/-- R162 ROL, zpx `36`. -/
def execRolZpx (b : Byte) (s : State) : Result := rol (.mem (.zpx b)) s

/-- R162 ROL, absx `3E`. -/
def execRolAbsx (w : Word) (s : State) : Result := rol (.mem (.absx w)) s

/-- R163 ROR, zp `66`. -/
def execRorZp (b : Byte) (s : State) : Result := ror (.mem (.zp b)) s

/-- R163 ROR, acc `6A`. -/
def execRorAcc (s : State) : Result := ror .acc s

/-- R163 ROR, abs `6E`. -/
def execRorAbs (w : Word) (s : State) : Result := ror (.mem (.abs w)) s

/-- R163 ROR, zpx `76`. -/
def execRorZpx (b : Byte) (s : State) : Result := ror (.mem (.zpx b)) s

/-- R163 ROR, absx `7E`. -/
def execRorAbsx (w : Word) (s : State) : Result := ror (.mem (.absx w)) s

end Sys2Proof.Machine
end

