-- ==== Sys2Proof/Machine/Stack.lean ====
section
/-! DEFINITION. The stack instructions (43_stack.md rules R150 to R153). SP wraps in the stack page; nothing faults. -/

namespace Sys2Proof.Machine

/-- R150 PHA, imp `48`. -/
def execPha (s : State) : Result := .next ((s.past 1).push s.a)

/-- R151 PLA, imp `68`. That it sets N and Z is the spec's decision D14 (log 12). -/
def execPla (s : State) : Result := .next (State.setNZ { (s.past 1).afterPull with a := s.pulledByte } s.pulledByte)

/-- R152 PHP, imp `08`: the status byte as read, with the stored Break (decision D13; log 11). -/
def execPhp (s : State) : Result := .next ((s.past 1).push s.p.toByte)

/-- R153 PLP, imp `28`. -/
def execPlp (s : State) : Result := .next { (s.past 1).afterPull with p := Status.ofByte s.pulledByte }

end Sys2Proof.Machine
end

