-- ==== Sys2Proof/Machine/System.lean ====
section
/-! DEFINITION. BRK, RTI, the flag instructions and NOP (49_system_flags_nop.md rules R220 to R229). -/

namespace Sys2Proof.Machine

/-- R220 BRK, imp `00`: PC past the opcode and the signature byte, which is not read, then the interrupt entry with Break
set. It enters whatever I is, and it is a successful step. -/
def execBrk (s : State) : Result := .next ((s.past 2).interruptEntry true)

/-- R221 RTI, imp `40`. -/
def execRti (s : State) : Result := .next s.interruptReturn

/-- R222 CLC, imp `18`. -/
def execClc (s : State) : Result := .next { s.past 1 with p := { s.p with c := false } }

/-- R223 CLD, imp `D8`. -/
def execCld (s : State) : Result := .next { s.past 1 with p := { s.p with d := false } }

/-- R224 CLI, imp `58`. -/
def execCli (s : State) : Result := .next { s.past 1 with p := { s.p with i := false } }

/-- R225 CLV, imp `B8`. -/
def execClv (s : State) : Result := .next { s.past 1 with p := { s.p with v := false } }

/-- R226 SEC, imp `38`. -/
def execSec (s : State) : Result := .next { s.past 1 with p := { s.p with c := true } }

/-- R227 SED, imp `F8`. -/
def execSed (s : State) : Result := .next { s.past 1 with p := { s.p with d := true } }

/-- R228 SEI, imp `78`. -/
def execSei (s : State) : Result := .next { s.past 1 with p := { s.p with i := true } }

/-- R229 NOP, imp `EA`. -/
def execNop (s : State) : Result := .next (s.past 1)

end Sys2Proof.Machine
end

