-- ==== Sys2Proof/Machine/Dispatch.lean ====
section
/-! DEFINITION. The dispatcher (30_encoding.md rule R76): one arm per constructor of `Instr`. -/

namespace Sys2Proof.Machine

def exec (i : Instr) (s : State) : Host.Outcome State Fault Refusal :=
  match i with
  | .brk => Sys2Proof.Machine.execBrk s
  | .oraIndx b => Sys2Proof.Machine.execOraIndx b s
  | .oraZp b => Sys2Proof.Machine.execOraZp b s
  | .aslZp b => Sys2Proof.Machine.execAslZp b s
  | .php => Sys2Proof.Machine.execPhp s
  | .oraImm v => Sys2Proof.Machine.execOraImm v s
  | .aslAcc => Sys2Proof.Machine.execAslAcc s
  | .oraAbs w => Sys2Proof.Machine.execOraAbs w s
  | .aslAbs w => Sys2Proof.Machine.execAslAbs w s
  | .bpl d => Sys2Proof.Machine.execBpl d s
  | .oraIndy b => Sys2Proof.Machine.execOraIndy b s
  | .oraZpx b => Sys2Proof.Machine.execOraZpx b s
  | .aslZpx b => Sys2Proof.Machine.execAslZpx b s
  | .clc => Sys2Proof.Machine.execClc s
  | .oraAbsy w => Sys2Proof.Machine.execOraAbsy w s
  | .oraAbsx w => Sys2Proof.Machine.execOraAbsx w s
  | .aslAbsx w => Sys2Proof.Machine.execAslAbsx w s
  | .jsr w => Sys2Proof.Machine.execJsr w s
  | .andIndx b => Sys2Proof.Machine.execAndIndx b s
  | .bitZp b => Sys2Proof.Machine.execBitZp b s
  | .andZp b => Sys2Proof.Machine.execAndZp b s
  | .rolZp b => Sys2Proof.Machine.execRolZp b s
  | .plp => Sys2Proof.Machine.execPlp s
  | .andImm v => Sys2Proof.Machine.execAndImm v s
  | .rolAcc => Sys2Proof.Machine.execRolAcc s
  | .bitAbs w => Sys2Proof.Machine.execBitAbs w s
  | .andAbs w => Sys2Proof.Machine.execAndAbs w s
  | .rolAbs w => Sys2Proof.Machine.execRolAbs w s
  | .bmi d => Sys2Proof.Machine.execBmi d s
  | .andIndy b => Sys2Proof.Machine.execAndIndy b s
  | .andZpx b => Sys2Proof.Machine.execAndZpx b s
  | .rolZpx b => Sys2Proof.Machine.execRolZpx b s
  | .sec => Sys2Proof.Machine.execSec s
  | .andAbsy w => Sys2Proof.Machine.execAndAbsy w s
  | .andAbsx w => Sys2Proof.Machine.execAndAbsx w s
  | .rolAbsx w => Sys2Proof.Machine.execRolAbsx w s
  | .rti => Sys2Proof.Machine.execRti s
  | .eorIndx b => Sys2Proof.Machine.execEorIndx b s
  | .eorZp b => Sys2Proof.Machine.execEorZp b s
  | .lsrZp b => Sys2Proof.Machine.execLsrZp b s
  | .pha => Sys2Proof.Machine.execPha s
  | .eorImm v => Sys2Proof.Machine.execEorImm v s
  | .lsrAcc => Sys2Proof.Machine.execLsrAcc s
  | .jmpAbs w => Sys2Proof.Machine.execJmpAbs w s
  | .eorAbs w => Sys2Proof.Machine.execEorAbs w s
  | .lsrAbs w => Sys2Proof.Machine.execLsrAbs w s
  | .bvc d => Sys2Proof.Machine.execBvc d s
  | .eorIndy b => Sys2Proof.Machine.execEorIndy b s
  | .eorZpx b => Sys2Proof.Machine.execEorZpx b s
  | .lsrZpx b => Sys2Proof.Machine.execLsrZpx b s
  | .cli => Sys2Proof.Machine.execCli s
  | .eorAbsy w => Sys2Proof.Machine.execEorAbsy w s
  | .eorAbsx w => Sys2Proof.Machine.execEorAbsx w s
  | .lsrAbsx w => Sys2Proof.Machine.execLsrAbsx w s
  | .rts => Sys2Proof.Machine.execRts s
  | .adcIndx b => Sys2Proof.Machine.execAdcIndx b s
  | .adcZp b => Sys2Proof.Machine.execAdcZp b s
  | .rorZp b => Sys2Proof.Machine.execRorZp b s
  | .pla => Sys2Proof.Machine.execPla s
  | .adcImm v => Sys2Proof.Machine.execAdcImm v s
  | .rorAcc => Sys2Proof.Machine.execRorAcc s
  | .jmpInd w => Sys2Proof.Machine.execJmpInd w s
  | .adcAbs w => Sys2Proof.Machine.execAdcAbs w s
  | .rorAbs w => Sys2Proof.Machine.execRorAbs w s
  | .bvs d => Sys2Proof.Machine.execBvs d s
  | .adcIndy b => Sys2Proof.Machine.execAdcIndy b s
  | .adcZpx b => Sys2Proof.Machine.execAdcZpx b s
  | .rorZpx b => Sys2Proof.Machine.execRorZpx b s
  | .sei => Sys2Proof.Machine.execSei s
  | .adcAbsy w => Sys2Proof.Machine.execAdcAbsy w s
  | .adcAbsx w => Sys2Proof.Machine.execAdcAbsx w s
  | .rorAbsx w => Sys2Proof.Machine.execRorAbsx w s
  | .staIndx b => Sys2Proof.Machine.execStaIndx b s
  | .styZp b => Sys2Proof.Machine.execStyZp b s
  | .staZp b => Sys2Proof.Machine.execStaZp b s
  | .stxZp b => Sys2Proof.Machine.execStxZp b s
  | .dey => Sys2Proof.Machine.execDey s
  | .txa => Sys2Proof.Machine.execTxa s
  | .styAbs w => Sys2Proof.Machine.execStyAbs w s
  | .staAbs w => Sys2Proof.Machine.execStaAbs w s
  | .stxAbs w => Sys2Proof.Machine.execStxAbs w s
  | .bcc d => Sys2Proof.Machine.execBcc d s
  | .staIndy b => Sys2Proof.Machine.execStaIndy b s
  | .styZpx b => Sys2Proof.Machine.execStyZpx b s
  | .staZpx b => Sys2Proof.Machine.execStaZpx b s
  | .stxZpy b => Sys2Proof.Machine.execStxZpy b s
  | .tya => Sys2Proof.Machine.execTya s
  | .staAbsy w => Sys2Proof.Machine.execStaAbsy w s
  | .txs => Sys2Proof.Machine.execTxs s
  | .staAbsx w => Sys2Proof.Machine.execStaAbsx w s
  | .ldyImm v => Sys2Proof.Machine.execLdyImm v s
  | .ldaIndx b => Sys2Proof.Machine.execLdaIndx b s
  | .ldxImm v => Sys2Proof.Machine.execLdxImm v s
  | .ldyZp b => Sys2Proof.Machine.execLdyZp b s
  | .ldaZp b => Sys2Proof.Machine.execLdaZp b s
  | .ldxZp b => Sys2Proof.Machine.execLdxZp b s
  | .tay => Sys2Proof.Machine.execTay s
  | .ldaImm v => Sys2Proof.Machine.execLdaImm v s
  | .tax => Sys2Proof.Machine.execTax s
  | .ldyAbs w => Sys2Proof.Machine.execLdyAbs w s
  | .ldaAbs w => Sys2Proof.Machine.execLdaAbs w s
  | .ldxAbs w => Sys2Proof.Machine.execLdxAbs w s
  | .bcs d => Sys2Proof.Machine.execBcs d s
  | .ldaIndy b => Sys2Proof.Machine.execLdaIndy b s
  | .ldyZpx b => Sys2Proof.Machine.execLdyZpx b s
  | .ldaZpx b => Sys2Proof.Machine.execLdaZpx b s
  | .ldxZpy b => Sys2Proof.Machine.execLdxZpy b s
  | .clv => Sys2Proof.Machine.execClv s
  | .ldaAbsy w => Sys2Proof.Machine.execLdaAbsy w s
  | .tsx => Sys2Proof.Machine.execTsx s
  | .ldyAbsx w => Sys2Proof.Machine.execLdyAbsx w s
  | .ldaAbsx w => Sys2Proof.Machine.execLdaAbsx w s
  | .ldxAbsy w => Sys2Proof.Machine.execLdxAbsy w s
  | .cpyImm v => Sys2Proof.Machine.execCpyImm v s
  | .cmpIndx b => Sys2Proof.Machine.execCmpIndx b s
  | .cpyZp b => Sys2Proof.Machine.execCpyZp b s
  | .cmpZp b => Sys2Proof.Machine.execCmpZp b s
  | .decZp b => Sys2Proof.Machine.execDecZp b s
  | .iny => Sys2Proof.Machine.execIny s
  | .cmpImm v => Sys2Proof.Machine.execCmpImm v s
  | .dex => Sys2Proof.Machine.execDex s
  | .cpyAbs w => Sys2Proof.Machine.execCpyAbs w s
  | .cmpAbs w => Sys2Proof.Machine.execCmpAbs w s
  | .decAbs w => Sys2Proof.Machine.execDecAbs w s
  | .bne d => Sys2Proof.Machine.execBne d s
  | .cmpIndy b => Sys2Proof.Machine.execCmpIndy b s
  | .cmpZpx b => Sys2Proof.Machine.execCmpZpx b s
  | .decZpx b => Sys2Proof.Machine.execDecZpx b s
  | .cld => Sys2Proof.Machine.execCld s
  | .cmpAbsy w => Sys2Proof.Machine.execCmpAbsy w s
  | .cmpAbsx w => Sys2Proof.Machine.execCmpAbsx w s
  | .decAbsx w => Sys2Proof.Machine.execDecAbsx w s
  | .cpxImm v => Sys2Proof.Machine.execCpxImm v s
  | .sbcIndx b => Sys2Proof.Machine.execSbcIndx b s
  | .cpxZp b => Sys2Proof.Machine.execCpxZp b s
  | .sbcZp b => Sys2Proof.Machine.execSbcZp b s
  | .incZp b => Sys2Proof.Machine.execIncZp b s
  | .inx => Sys2Proof.Machine.execInx s
  | .sbcImm v => Sys2Proof.Machine.execSbcImm v s
  | .nop => Sys2Proof.Machine.execNop s
  | .cpxAbs w => Sys2Proof.Machine.execCpxAbs w s
  | .sbcAbs w => Sys2Proof.Machine.execSbcAbs w s
  | .incAbs w => Sys2Proof.Machine.execIncAbs w s
  | .beq d => Sys2Proof.Machine.execBeq d s
  | .sbcIndy b => Sys2Proof.Machine.execSbcIndy b s
  | .sbcZpx b => Sys2Proof.Machine.execSbcZpx b s
  | .incZpx b => Sys2Proof.Machine.execIncZpx b s
  | .sed => Sys2Proof.Machine.execSed s
  | .sbcAbsy w => Sys2Proof.Machine.execSbcAbsy w s
  | .sbcAbsx w => Sys2Proof.Machine.execSbcAbsx w s
  | .incAbsx w => Sys2Proof.Machine.execIncAbsx w s

end Sys2Proof.Machine
end

