-- ==== Sys2Proof/Machine/Step.lean ====
section
/-! DEFINITION. One step of the core (30_encoding.md rule R75): fetch and decode at PC, execute, one bus tick. The three
bytes an instruction can have are read at once: reads are pure, so their number is not observable (R41; log 21), and
all of an instruction's operand bytes are read before its first write. -/

namespace Sys2Proof.Machine

/-- R75: on an unassigned byte the dispatch fault, with no change of state and no bus tick (R240, R43); otherwise the
instruction's meaning and then one bus tick. -/
def step (s : State) : Host.Outcome State Fault Refusal :=
  match decode s.stream with
  | .error _ => .fault (.dispatch (s.read s.pc))
  | .ok (i, _) => withTick (exec i s)

/-- `s` with a table word's instruction stored at PC, PC + 1 and PC + 2. Where no store holds bytes at one of the three,
the map becomes `FlatRam`'s, since the fetch needs a store that does (log 4). -/
def State.withFetchWord (s : State) (nbits w : Nat) : State :=
  let addrs := [s.pc, s.pc + 1, s.pc + 2]
  let s := if addrs.all fun a => (s.bus.map.backing a.toNat).retains then s
    else { s with bus := { s.bus with map := flatRam.map } }
  (addrs.zip (tableBytes nbits w)).foldl (fun s p => s.place p.1 p.2) s

end Sys2Proof.Machine
end

