-- ==== Sys2Proof/Machine/Driver.lean ====
section
/-! DEFINITION. The host's moves (the source's System Driver): `reset()` (70_reset_and_hazards.md rules R270, R271),
`Step()`, `InterruptRequest()` (60_exceptions.md rule R245), a write through the host's window into the bus (20_memory.md
rule R65), and building a router (R56). They are sequential and fall only between steps (R246). -/

namespace Sys2Proof.Machine

/-- R270: bus reset first, the registers next, the vector read last (decision D17; log 16). It depends on the bus and on
the open parameter `SP_RESET` alone, so no register state survives (R271). -/
def resetState (spReset : Byte) (bus : Bus) : State :=
  let s : State :=
    { a := 0x00, x := 0x00, y := 0x00, sp := spReset, pc := 0x0000,
      p := { c := false, z := false, i := true, d := false, b := false, v := false, n := false },
      bus := bus.reset }
  { s with pc := s.readWord Config.resetVector }

/-- R245: taken iff I is clear; a masked request leaves no trace. It is no step and issues no bus tick (decision D16;
log 14). -/
def State.interruptRequest (s : State) : State :=
  if s.p.i = false then s.interruptEntry false else s

/-- The host's moves. -/
inductive Move where
  | reset
  | step
  | interruptRequest
  | poke (a : Word) (v : Byte)
  deriving DecidableEq, Repr

/-- The lifecycle of R28: before the first reset there is a bus and no register state. -/
inductive Session where
  | constructed (bus : Bus)
  | running (s : State)
  deriving DecidableEq, Repr

def Session.bus : Session → Bus
  | .constructed b => b
  | .running s => s.bus

/-- One move of the host. A step or an interrupt request before the first reset is refused (R28, decision D24). A fault is
the answer of its step alone: the session it was made in may go on (R242). -/
def Session.move (m : Move) (x : Session) : Host.Outcome Session Fault Refusal :=
  match m, x with
  | .reset, x => .next (.running (resetState Config.spReset x.bus))
  | .poke a v, .constructed b => .next (.constructed (b.write a v))
  | .poke a v, .running s => .next (.running (s.write a v))
  | .step, .constructed _ => .refused .beforeFirstReset
  | .interruptRequest, .constructed _ => .refused .beforeFirstReset
  | .interruptRequest, .running s => .next (.running s.interruptRequest)
  | .step, .running s =>
    match step s with
    | .next t => .next (.running t)
    | .fault f => .fault f
    | .refused r => .refused r

/-- R55, R56: a router from its entries in the order of attachment, refused out of ascending start order (decision D22;
log 18). -/
def attachAll : Store → List (Word × Store) → Host.Outcome Store Fault Refusal
  | router, [] => .next router
  | router, (start, child) :: rest =>
    if router.lastStart ≤ start.toNat then attachAll (.attach router start child) rest
    else .refused .attachOrder

/-- R55: "an empty router, then repeatedly attach". -/
def buildRouter (entries : List (Word × Store)) : Host.Outcome Store Fault Refusal := attachAll .empty entries

end Sys2Proof.Machine
end

