-- ==== Sys2Proof/Safety.lean ====
section
/-! DEFINITION. Runs and what counts as a safe one. The hardware never ends a run (70_reset_and_hazards.md rule R277): the
open parameter `EndOfRun` is the argument `endOfRun`, a test of the state at a step boundary (log 20). -/

namespace Sys2Proof

open Machine

/-- How a run of at most so many steps stops. -/
inductive RunEnd where
  /-- The end-of-run test held. -/
  | ended (s : State)
  /-- A dispatch fault: the failed end (R242). The state is the one it left, unchanged by the faulting step. -/
  | faulted (s : State) (f : Fault)
  /-- A refusal. No step of this machine gives one. -/
  | refused (s : State) (r : Refusal)
  /-- The steps ran out first. -/
  | goingOn (s : State)
  deriving DecidableEq, Repr

/-- At most `n` steps, until the end-of-run test holds at a step boundary. -/
def runUntil (endOfRun : State → Bool) : Nat → State → RunEnd
  | 0, s => if endOfRun s then .ended s else .goingOn s
  | n + 1, s =>
    if endOfRun s then .ended s
    else
      match step s with
      | .next t => runUntil endOfRun n t
      | .fault f => .faulted s f
      | .refused r => .refused s r

/-- The run does not fail in its first `n` steps. -/
def RunEnd.safe : RunEnd → Bool
  | .ended _ | .goingOn _ => true
  | .faulted _ _ | .refused _ _ => false

/-- `s` can be reached from `s0` by steps. -/
inductive Reachable (s0 : State) : State → Prop
  | start : Reachable s0 s0
  | next {s t : State} : Reachable s0 s → step s = .next t → Reachable s0 t

end Sys2Proof
end

