-- ==== Sys2Proof/Certificates/Slice0/Obligations.lean ====
section
/-! DEFINITION. The statements for the provers. Each speaks of every form of its instructions through `Instr.form`, and each
result is the whole next state, written out from the rule. "The spec's decision D<n>" is a row of 92_eei_decisions.md:
where a statement rests on one, or on an entry of the assumption log, its docstring says so. -/

namespace Sys2Proof

open Machine

/-- N and Z from a value, the other five flags as they were (the NZ invariant of R22). -/
def nzOf (p : Status) (v : Byte) : Status := { p with z := decide (v = 0), n := decide (128 ≤ v.toNat) }

/-- The PC past an instruction of so many bytes, modulo 65536. -/
def pcPast (s : State) (n : Nat) : Word := BitVec.ofNat 16 (s.pc.toNat + n)

/-- A flag as a number. -/
def flagBit (b : Bool) : Nat := if b then 1 else 0

/-- Every byte of memory reads as before. -/
def SameMemory (s t : State) : Prop := ∀ k : Word, t.read k = s.read k

/-- Every byte of memory outside the listed addresses reads as before. -/
def SameMemoryBut (stored : List Word) (s t : State) : Prop := ∀ k : Word, k ∉ stored → t.read k = s.read k

/-- The stack page is backed by a store that retains writes (R54), and the bus is in order. -/
def RamStack (s : State) : Prop := s.wf = true ∧ ∀ q : Byte, s.bus.map.backing (stackAddr q).toNat = .ram

/-- The two states differ in the Decimal flag at most. -/
def AgreeButDecimal (s t : State) : Prop := t = { s with p := { s.p with d := t.p.d } }

/-- When each branch is taken (the table of 48_control_transfer.md; decision D21). -/
def branchTaken (op : BranchOp) (p : Status) : Bool :=
  match op with
  | .bcc => !p.c
  | .bcs => p.c
  | .beq => p.z
  | .bmi => p.n
  | .bne => !p.z
  | .bpl => !p.n
  | .bvc => !p.v
  | .bvs => p.v

/-- Control transfers: the instructions that may leave PC elsewhere than at the next instruction (48_control_transfer.md,
BRK and RTI). -/
def transfersControl : Form → Bool
  | .jump _ | .jumpInd _ | .call _ | .branch _ _ => true
  | .implied op => op ∈ [.rts, .brk, .rti]
  | _ => false

/-- Who writes A (R13). -/
def writesA : Form → Bool
  | .read op _ => op ∈ [.lda, .and, .ora, .eor, .adc, .sbc]
  | .rmw op t => op ∈ [.asl, .lsr, .rol, .ror] && t = .acc
  | .implied op => op ∈ [.txa, .tya, .pla]
  | _ => false

/-- Who writes X (R14). -/
def writesX : Form → Bool
  | .read op _ => op = .ldx
  | .implied op => op ∈ [.tax, .tsx, .inx, .dex]
  | _ => false

/-- Who writes Y (R15). -/
def writesY : Form → Bool
  | .read op _ => op = .ldy
  | .implied op => op ∈ [.tay, .iny, .dey]
  | _ => false

/-- Who writes SP (R16): TXS and every push and pull. -/
def writesSP : Form → Bool
  | .call _ => true
  | .implied op => op ∈ [.txs, .pha, .php, .pla, .plp, .rts, .brk, .rti]
  | _ => false

/-- Who writes Carry (R23). -/
def writesC : Form → Bool
  | .read op _ => op ∈ [.adc, .sbc, .cmp, .cpx, .cpy]
  | .rmw op _ => op ∈ [.asl, .lsr, .rol, .ror]
  | .implied op => op ∈ [.clc, .sec, .plp, .rti]
  | _ => false

/-- Who writes Zero and Negative (R23). -/
def writesNZ : Form → Bool
  | .read _ _ | .rmw _ _ => true
  | .implied op => op ∈ [.tax, .tay, .txa, .tya, .tsx, .pla, .inx, .iny, .dex, .dey, .plp, .rti]
  | _ => false

/-- Who writes Interrupt-disable (R23). -/
def writesI : Form → Bool
  | .implied op => op ∈ [.sei, .cli, .plp, .rti, .brk]
  | _ => false

/-- Who writes Decimal (R23). -/
def writesD : Form → Bool
  | .implied op => op ∈ [.sed, .cld, .plp, .rti]
  | _ => false

/-- Who writes Break (R23). -/
def writesB : Form → Bool
  | .implied op => op ∈ [.brk, .plp, .rti]
  | _ => false

/-- Who writes Overflow (R23). -/
def writesV : Form → Bool
  | .read op _ => op ∈ [.adc, .sbc, .bit]
  | .implied op => op ∈ [.clv, .plp, .rti]
  | _ => false

end Sys2Proof

open Sys2Proof Sys2Proof.Machine

/-! ## Encoding -/

/-- Decoding an encoded instruction gives it back, whatever bytes follow, for every instruction and every value of its
operands. The opcode numbers are the spec's decision D2 (log 8). -/
def Obligations.DecodeInvertsEncode : Prop :=
  ∀ (i : Instr) (rest : List Byte), decode (encode i ++ rest) = .ok (i, rest)

/-- Where bytes decode to an instruction they are that instruction's encoding and what follows it: no word has two
meanings, and no operand bit is ignored (R78). The opcode numbers are the spec's decision D2 (log 8). -/
def Obligations.EncodeInvertsDecode : Prop :=
  ∀ (bs rest : List Byte) (i : Instr), decode bs = .ok (i, rest) → bs = encode i ++ rest

/-- The 105 bytes that R77 lists, and they alone, are rejected by name, whatever follows. The list is the spec's decision
D2 (log 8). -/
def Obligations.UnassignedBytesSpellNoInstruction : Prop :=
  unassignedBytes.length = 105 ∧ unassignedBytes.Nodup ∧
  ∀ (op : Byte) (rest : List Byte), decode (op :: rest) = .error (.unassigned op) ↔ op ∈ unassignedBytes

/-- A few words written out from the encodings of R74 and R79 decode to their instructions: a sanity statement. The numbers
are the spec's decisions D2 and D4 (log 8). -/
def Obligations.SpecWordsDecode : Prop :=
  decodeTableWord 16 0x10A9 = some (.ldaImm 0x10) ∧
  decodeTableWord 24 0x1234BD = some (.ldaAbsx 0x1234) ∧
  decodeTableWord 16 0x10B6 = some (.ldxZpy 0x10) ∧
  decodeTableWord 24 0x12346C = some (.jmpInd 0x1234) ∧
  decodeTableWord 16 0xEED0 = some (.bne 0xEE) ∧
  decodeTableWord 8 0x0A = some .aslAcc ∧
  decodeTableWord 8 0xFF = none

/-! ## The step -/

/-- R75, R76: where the bytes at PC decode to an instruction, the step is that instruction's meaning and then one bus tick
(the tick's place is the spec's decision D18; log 15). `exec` itself moves PC past the instruction's bytes. -/
def Obligations.StepRunsDecodedInstruction : Prop :=
  ∀ (s : State) (i : Instr) (rest : List Byte),
    decode [s.read s.pc, s.read (s.pc + 1), s.read (s.pc + 2)] = .ok (i, rest) →
    ∀ t : State, exec i s = .next t → step s = .next { t with bus := t.bus.tick }

/-- R70, R75: where the bytes from PC on, modulo 65536, are an instruction's encoding, the step is that instruction's
meaning and then one bus tick (decision D18; log 15). -/
def Obligations.StepRunsInstructionStoredAtPc : Prop :=
  ∀ (s t : State) (i : Instr),
    (∀ (k : Nat) (b : Byte), (encode i)[k]? = some b → s.read (s.pc + BitVec.ofNat 16 k) = b) →
    exec i s = .next t → step s = .next { t with bus := t.bus.tick }

/-- R240: a step faults exactly on an unassigned byte at PC, and the fault names the byte; otherwise it completes. Which
bytes those are is the spec's decision D2 (log 8). -/
def Obligations.StepFaultsExactlyOnUnassignedByte : Prop :=
  ∀ s : State,
    (s.read s.pc ∈ unassignedBytes → step s = .fault (.dispatch (s.read s.pc))) ∧
    (s.read s.pc ∉ unassignedBytes → ∃ t, step s = .next t)

/-- R241: the dispatch fault is the only fault. No instruction faults or is refused, whatever the registers, the flags and
the memory hold; the only way a step stops is the dispatch fault; an unmapped read gives 0, and a write to an unmapped or a
read-only address is dropped. -/
def Obligations.DispatchFaultIsTheOnlyStop : Prop :=
  (∀ (i : Instr) (s : State), ∃ t, exec i s = .next t) ∧
  (∀ s : State, (∃ t, step s = .next t) ∨ step s = .fault (.dispatch (s.read s.pc))) ∧
  (∀ (b : Bus) (a : Word) (v : Byte),
    (b.map.backing a.toNat = .null → b.read a = 0x00 ∧ b.write a v = b) ∧
    (b.map.backing a.toNat = .rom → b.write a v = b))

/-- R43: a step that completes issues exactly one bus tick, and the instruction itself none. That it comes after the
instruction is the spec's decision D18 (log 15); the count is the model's own field (log 7). -/
def Obligations.StepIssuesOneBusTick : Prop :=
  (∀ (i : Instr) (s t : State), exec i s = .next t → t.bus.ticks = s.bus.ticks) ∧
  (∀ s t : State, step s = .next t → t.bus.ticks = s.bus.ticks + 1)

/-- Every step keeps the bus in order: the cells in canonical form and inside the 64 KiB space, a byte held only where a RAM
or ROM store answers, and the router's regions in ascending order. -/
def Obligations.StepKeepsBusInOrder : Prop :=
  ∀ s t : State, s.wf = true → step s = .next t → t.wf = true

/-- The bus is in order after reset (on `FlatRam`, the model's choice of bus: log 4). -/
def Obligations.ResetBusInOrder : Prop := State.reset.wf = true

/-- No step changes the memory map, and no step changes what an address reads as where no RAM store answers (R42: writes to
unmapped or read-only regions are dropped; the store kinds are the model's: log 3). -/
def Obligations.StepKeepsMapAndReadOnlyBytes : Prop :=
  ∀ s t : State, step s = .next t →
    t.bus.map = s.bus.map ∧
    ∀ k : Word, s.bus.map.backing k.toNat ≠ .ram → t.read k = s.read k

/-! ## Memory and the router -/

/-- R42, R60: a read returns the latest write to its address where a RAM store answers, and every other read is what it
was. -/
def Obligations.ReadReturnsLatestWrite : Prop :=
  ∀ (b : Bus) (a k : Word) (v : Byte), b.wf = true →
    (b.write a v).read k = if k = a ∧ b.map.backing a.toNat = .ram then v else b.read k

/-- Memories in canonical form that read alike are equal data. The form is the model's (log 6). -/
def Obligations.CanonicalMemoriesThatReadAlikeAreEqual : Prop :=
  ∀ m n : Memory, Memory.wf m = true → Memory.wf n = true →
    (∀ k : Nat, Memory.get m k = Memory.get n k) → m = n

/-- R58: the null store reads `0x00` at every offset, its writes, ticks and resets do nothing. -/
def Obligations.NullStoreReadsZeroAndIgnoresWrites : Prop :=
  (∀ offset : Nat, (Store.leaf .null).locate offset = some { start := 0, offset := offset, kind := .null }) ∧
  (Store.leaf .null).tick = .leaf .null ∧ (Store.leaf .null).reset = .leaf .null ∧
  ∀ (b : Bus) (a : Word) (v : Byte), b.map.backing a.toNat = .null → b.read a = 0x00 ∧ b.write a v = b

/-- R57: a router's tick and reset go to every store it contains, in declaration order. -/
def Obligations.RouterFansOutTickAndReset : Prop :=
  ∀ r : Store, r.isRouter = true →
    r.tick.entries = r.entries.map (fun e => (e.1, e.2.tick)) ∧
    r.reset.entries = r.entries.map (fun e => (e.1, e.2.reset))

/-- R56: of the entries with `start ≤ a` the one with the greatest start is selected, the later attached of equals, and it
is asked at `a − start`; where no entry qualifies the address is unmapped. -/
def Obligations.RouterSelectsGreatestStart : Prop :=
  ∀ (r : Store) (a : Nat), r.isRouter = true →
    (∀ (before after : List (Word × Store)) (e : Word × Store),
      r.entries = before ++ e :: after → e.1.toNat ≤ a →
      (∀ f ∈ before, f.1.toNat ≤ a → f.1.toNat ≤ e.1.toNat) →
      (∀ f ∈ after, f.1.toNat ≤ a → f.1.toNat < e.1.toNat) →
      r.locate a = some (Slot.within e.1.toNat a (e.2.locate (a - e.1.toNat)))) ∧
    ((∀ e ∈ r.entries, a < e.1.toNat) → r.locate a = none ∧ r.backing a = .null)

/-- R55, R56: attaching entries builds the router with those entries, in that order, exactly where their starts ascend, and
is refused by name otherwise (the refusal is the spec's decision D22; log 18). -/
def Obligations.RouterIsBuiltExactlyInAscendingOrder : Prop :=
  ∀ entries : List (Word × Store),
    (entries.Pairwise (fun e f => e.1.toNat ≤ f.1.toNat) →
      ∃ r, buildRouter entries = .next r ∧ r.isRouter = true ∧ r.entries = entries) ∧
    (¬ entries.Pairwise (fun e f => e.1.toNat ≤ f.1.toNat) → buildRouter entries = .refused .attachOrder)

/-! ## Operands -/

/-- R104 to R109: the effective addresses of the direct and indexed modes, as numbers: zero-page indexing modulo 256,
absolute indexing modulo 65536; and the bytes they consume. -/
def Obligations.DirectModesResolveToTheirAddresses : Prop :=
  ∀ (b : Byte) (w : Word) (s : State),
    ((effAddr (.zp b) s).toNat = b.toNat ∧ (AddrMode.zp b).length = 2) ∧
    ((effAddr (.zpx b) s).toNat = (b.toNat + s.x.toNat) % 256 ∧ (AddrMode.zpx b).length = 2) ∧
    ((effAddr (.zpy b) s).toNat = (b.toNat + s.y.toNat) % 256 ∧ (AddrMode.zpy b).length = 2) ∧
    ((effAddr (.abs w) s).toNat = w.toNat ∧ (AddrMode.abs w).length = 3) ∧
    ((effAddr (.absx w) s).toNat = (w.toNat + s.x.toNat) % 65536 ∧ (AddrMode.absx w).length = 3) ∧
    ((effAddr (.absy w) s).toNat = (w.toNat + s.y.toNat) % 65536 ∧ (AddrMode.absy w).length = 3)

/-- R110, R111: the two indirect modes. Both pointer bytes come from the zero page (the wrap of the second is the spec's
decision D10, log 10), low byte first (decision D4, log 8). -/
def Obligations.IndirectModesDereferenceZeroPagePointers : Prop :=
  ∀ (b : Byte) (s : State),
    let pointer (z : Nat) : Nat :=
      (s.read (BitVec.ofNat 16 (z % 256))).toNat + 256 * (s.read (BitVec.ofNat 16 ((z + 1) % 256))).toNat
    ((effAddr (.indx b) s).toNat = pointer (b.toNat + s.x.toNat) ∧ (AddrMode.indx b).length = 2) ∧
    ((effAddr (.indy b) s).toNat = (pointer b.toNat + s.y.toNat) % 65536 ∧ (AddrMode.indy b).length = 2)

/-- R102, R103, R113: an immediate operand is its byte, any other the byte at its address; the accumulator form reads and
writes A in place, a memory form reads and writes the byte at its address. -/
def Obligations.OperandsAndTargetsResolve : Prop :=
  ∀ (v : Byte) (m : AddrMode) (s : State),
    operandValue (.imm v) s = v ∧ operandValue (.mem m) s = s.read (effAddr m s) ∧
    targetValue .acc s = s.a ∧ targetValue (.mem m) s = s.read (effAddr m s) ∧
    targetWrite .acc v s = { s with a := v } ∧
    targetWrite (.mem m) v s = { s with bus := s.bus.write (effAddr m s) v } ∧
    (Operand.imm v).length = 2 ∧ Target.acc.length = 1

/-! ## Flags and the ALU -/

/-- R20, R21: where each flag stands in the status byte, the reserved bit read as 1, and the wholesale load, bit 5 ignored.
The positions are the spec's decision D3 (log 8). -/
def Obligations.StatusByteLayout : Prop :=
  (∀ p : Status, p.toByte.toNat =
    128 * flagBit p.n + 64 * flagBit p.v + 32 + 16 * flagBit p.b + 8 * flagBit p.d + 4 * flagBit p.i + 2 * flagBit p.z + flagBit p.c) ∧
  (∀ w : Byte, Status.ofByte w =
    { c := w.toNat.testBit 0, z := w.toNat.testBit 1, i := w.toNat.testBit 2, d := w.toNat.testBit 3,
      b := w.toNat.testBit 4, v := w.toNat.testBit 6, n := w.toNat.testBit 7 })

/-- R120: `SetNZ` writes exactly Z and N, which are never both set after it. -/
def Obligations.SetNZWritesZeroAndNegative : Prop :=
  ∀ (s : State) (v : Byte),
    s.setNZ v = { s with p := nzOf s.p v } ∧ ¬ ((s.setNZ v).p.z = true ∧ (s.setNZ v).p.n = true)

/-- R121: `AluAdd` as a nine-bit sum: the new accumulator, Carry from bit 8, Overflow where operands of one sign give the
other, N and Z from the result; nothing else changes, Decimal included. -/
def Obligations.AluAddIsNineBitSum : Prop :=
  ∀ (s : State) (v : Byte),
    let sum := s.a.toNat + v.toNat + flagBit s.p.c
    let r : Byte := BitVec.ofNat 8 (sum % 256)
    s.aluAdd v = { s with
      a := r
      p := { nzOf s.p r with
        c := decide (256 ≤ sum)
        v := decide ((128 ≤ s.a.toNat ↔ 128 ≤ v.toNat) ∧ ¬ (128 ≤ r.toNat ↔ 128 ≤ s.a.toNat)) } }

/-- R125 and the table of 41_alu.md: the Overflow that `AluAdd` leaves is set exactly where the signed sum lies outside
−128..127. -/
def Obligations.AluAddOverflowIsSignedOverflow : Prop :=
  ∀ (s : State) (v : Byte),
    (s.aluAdd v).p.v = true ↔
      s.a.toInt + v.toInt + (flagBit s.p.c : Int) < -128 ∨ 127 < s.a.toInt + v.toInt + (flagBit s.p.c : Int)

/-- R122: `AluSubtract`: the difference less the borrow, modulo 256; Carry set where there is no borrow; Overflow set where
the signed difference lies outside −128..127; N and Z from the result; nothing else. -/
def Obligations.AluSubtractIsDifferenceWithBorrow : Prop :=
  ∀ (s : State) (v : Byte),
    let borrow := 1 - flagBit s.p.c
    let r : Byte := BitVec.ofNat 8 (s.a.toNat + 256 - v.toNat - borrow)
    let signed : Int := s.a.toInt - v.toInt - (borrow : Int)
    s.aluSubtract v = { s with
      a := r
      p := { nzOf s.p r with
        c := decide (v.toNat + borrow ≤ s.a.toNat)
        v := decide (signed < -128 ∨ 127 < signed) } }

/-- R123: `AluCompare`: Carry where register ≥ value, N and Z from the wrapped difference; no register, no Overflow. -/
def Obligations.AluCompareSetsCarryAndNZ : Prop :=
  ∀ (s : State) (r v : Byte),
    s.aluCompare r v = { s with
      p := { nzOf s.p (BitVec.ofNat 8 (r.toNat + 256 - v.toNat)) with c := decide (v.toNat ≤ r.toNat) } }

/-- R127: ADC and SBC give the same result and the same C, V, N, Z whatever D is. -/
def Obligations.DecimalDoesNotAlterArithmetic : Prop :=
  ∀ (i : Instr) (o : Operand) (s : State) (d : Bool),
    i.form = .read .adc o ∨ i.form = .read .sbc o →
    ∃ t u, exec i s = .next t ∧ exec i { s with p := { s.p with d := d } } = .next u ∧
      u.a = t.a ∧ u.p = { t.p with d := d }

/-- What a program can observe never depends on D but through the byte PHP or BRK pushes: states that differ in D alone
take, by any other instruction, steps to states that differ in D alone. From R23 and R127. The two opcode bytes
excluded are the spec's decision D2 (log 8). -/
def Obligations.DecimalIsObservedOnlyByPushingStatus : Prop :=
  ∀ s s' t : State, AgreeButDecimal s s' → s.read s.pc ≠ 0x08 → s.read s.pc ≠ 0x00 →
    step s = .next t → ∃ t', step s' = .next t' ∧ AgreeButDecimal t t'

/-! ## What each instruction does -/

/-- LDA, LDX, LDY: the operand goes into the register, N and Z follow it. Which register a mnemonic names is the spec's
decision D21. -/
def Obligations.LoadsPutOperandInRegister : Prop :=
  ∀ (i : Instr) (o : Operand) (s : State),
    let v := operandValue o s
    let t := { s with pc := pcPast s o.length, p := nzOf s.p v }
    (i.form = .read .lda o → exec i s = .next { t with a := v }) ∧
    (i.form = .read .ldx o → exec i s = .next { t with x := v }) ∧
    (i.form = .read .ldy o → exec i s = .next { t with y := v })

/-- STA, STX, STY: one write of the register to the address, and nothing else but PC. The mnemonics and that no flag is
written are the spec's decision D21. -/
def Obligations.StoresWriteRegisterToAddress : Prop :=
  ∀ (i : Instr) (m : AddrMode) (s : State),
    let put (v : Byte) : State := { s with pc := pcPast s m.length, bus := s.bus.write (effAddr m s) v }
    (i.form = .store .sta m → exec i s = .next (put s.a)) ∧
    (i.form = .store .stx m → exec i s = .next (put s.x)) ∧
    (i.form = .store .sty m → exec i s = .next (put s.y))

/-- TAX, TAY, TXA, TYA, TSX set N and Z from the byte moved, TXS sets no flag. Which register a letter names is the spec's
decision D21. -/
def Obligations.TransfersCopyRegisters : Prop :=
  ∀ s : State,
    let t (v : Byte) : State := { s with pc := pcPast s 1, p := nzOf s.p v }
    exec .tax s = .next { t s.a with x := s.a } ∧
    exec .tay s = .next { t s.a with y := s.a } ∧
    exec .txa s = .next { t s.x with a := s.x } ∧
    exec .tya s = .next { t s.y with a := s.y } ∧
    exec .tsx s = .next { t s.sp with x := s.sp } ∧
    exec .txs s = .next { s with pc := pcPast s 1, sp := s.x }

/-- PHA, PHP push A and the status byte as read, with the stored Break (decision D13; log 11); PLA pulls A and sets N and Z
(decision D14; log 12); PLP loads all seven flags. The stack's direction is the spec's decision D9 (log 8). -/
def Obligations.StackInstructionsPushAndPull : Prop :=
  ∀ s : State,
    let pulled := s.read (stackAddr (s.sp + 1))
    let pushed (v : Byte) : State :=
      { s with pc := pcPast s 1, sp := s.sp - 1, bus := s.bus.write (stackAddr s.sp) v }
    exec .pha s = .next (pushed s.a) ∧
    exec .php s = .next (pushed s.p.toByte) ∧
    exec .pla s = .next { s with pc := pcPast s 1, sp := s.sp + 1, a := pulled, p := nzOf s.p pulled } ∧
    exec .plp s = .next { s with pc := pcPast s 1, sp := s.sp + 1, p := Status.ofByte pulled }

/-- ASL, LSR, ROL, ROR by one bit, on the accumulator or on a resolved address: the new value as a number, Carry the bit
shifted out, N and Z from the new value. The directions and ASL's and LSR's zero fill are the spec's decision D21. -/
def Obligations.ShiftsMoveOneBitThroughCarry : Prop :=
  ∀ (i : Instr) (t : Target) (s : State),
    let old := (targetValue t s).toNat
    let put (new : Nat) (out : Bool) : State :=
      let v : Byte := BitVec.ofNat 8 new
      targetWrite t v { s with pc := pcPast s t.length, p := { nzOf s.p v with c := out } }
    (i.form = .rmw .asl t → exec i s = .next (put (2 * old) (decide (128 ≤ old)))) ∧
    (i.form = .rmw .lsr t → exec i s = .next (put (old / 2) (decide (old % 2 = 1)))) ∧
    (i.form = .rmw .rol t → exec i s = .next (put (2 * old + flagBit s.p.c) (decide (128 ≤ old)))) ∧
    (i.form = .rmw .ror t → exec i s = .next (put (old / 2 + 128 * flagBit s.p.c) (decide (old % 2 = 1))))

/-- INC, DEC, INX, INY, DEX, DEY: plus or minus one modulo 256, N and Z from the result, Carry and Overflow untouched.
Which register or memory a mnemonic touches is the spec's decision D21. -/
def Obligations.IncrementsAndDecrementsWrap : Prop :=
  ∀ s : State,
    let up (v : Byte) : Byte := BitVec.ofNat 8 ((v.toNat + 1) % 256)
    let down (v : Byte) : Byte := BitVec.ofNat 8 ((v.toNat + 255) % 256)
    let t (v : Byte) : State := { s with pc := pcPast s 1, p := nzOf s.p v }
    (∀ (i : Instr) (m : AddrMode),
      let old := s.read (effAddr m s)
      let put (v : Byte) : State :=
        { s with pc := pcPast s m.length, p := nzOf s.p v, bus := s.bus.write (effAddr m s) v }
      (i.form = .rmw .inc (.mem m) → exec i s = .next (put (up old))) ∧
      (i.form = .rmw .dec (.mem m) → exec i s = .next (put (down old)))) ∧
    exec .inx s = .next { t (up s.x) with x := up s.x } ∧
    exec .iny s = .next { t (up s.y) with y := up s.y } ∧
    exec .dex s = .next { t (down s.x) with x := down s.x } ∧
    exec .dey s = .next { t (down s.y) with y := down s.y }

/-- AND, ORA, EOR combine A with the operand, N and Z follow the result. Which combination a mnemonic names is the spec's
decision D21. -/
def Obligations.LogicCombinesWithAccumulator : Prop :=
  ∀ (i : Instr) (o : Operand) (s : State),
    let v := operandValue o s
    let put (r : Byte) : State := { s with pc := pcPast s o.length, a := r, p := nzOf s.p r }
    (i.form = .read .and o → exec i s = .next (put (BitVec.ofNat 8 (s.a.toNat &&& v.toNat)))) ∧
    (i.form = .read .ora o → exec i s = .next (put (BitVec.ofNat 8 (s.a.toNat ||| v.toNat)))) ∧
    (i.form = .read .eor o → exec i s = .next (put (BitVec.ofNat 8 (s.a.toNat ^^^ v.toNat))))

/-- R173: BIT takes N and V from the operand's bits 7 and 6 and Z from the and of operand and A; A and the other flags
keep their values. -/
def Obligations.BitTestsOperandAgainstAccumulator : Prop :=
  ∀ (i : Instr) (o : Operand) (s : State), i.form = .read .bit o →
    let v := operandValue o s
    exec i s = .next { s with
      pc := pcPast s o.length
      p := { s.p with
        n := v.toNat.testBit 7
        v := v.toNat.testBit 6
        z := decide (s.a.toNat &&& v.toNat = 0) } }

/-- ADC, SBC, CMP, CPX, CPY delegate to the ALU helpers with their operand, at the PC past the instruction. Which helper
and register a mnemonic names is the spec's decision D21. -/
def Obligations.ArithmeticDelegatesToTheAlu : Prop :=
  ∀ (i : Instr) (o : Operand) (s : State),
    let v := operandValue o s
    let t := { s with pc := pcPast s o.length }
    (i.form = .read .adc o → exec i s = .next (t.aluAdd v)) ∧
    (i.form = .read .sbc o → exec i s = .next (t.aluSubtract v)) ∧
    (i.form = .read .cmp o → exec i s = .next (t.aluCompare s.a v)) ∧
    (i.form = .read .cpx o → exec i s = .next (t.aluCompare s.x v)) ∧
    (i.form = .read .cpy o → exec i s = .next (t.aluCompare s.y v))

/-- JMP: the absolute target, or the word at the pointer (R112) as `jumpTarget` reads it under the open parameter
JMP_INDIRECT_PAGE_WRAP (D11; log 2); and what `jumpTarget` reads for either value of the parameter: the high byte comes
from the next address, but where the pointer's low byte is `0xFF` and the parameter holds, from the start of the pointer's
own page. Nothing but PC changes. -/
def Obligations.JumpsLoadThePc : Prop :=
  ∀ (w : Word) (s : State),
    exec (.jmpAbs w) s = .next { s with pc := w } ∧
    exec (.jmpInd w) s = .next { s with pc := jumpTarget Config.jmpIndirectPageWrap w s } ∧
    ∀ pageWrap : Bool, jumpTarget pageWrap w s =
      if w.toNat % 256 = 255 ∧ pageWrap = true then wordOf (s.read (w - 255)) (s.read w)
      else wordOf (s.read (w + 1)) (s.read w)

/-- JSR pushes the address of its own last byte, high byte first, and jumps; RTS pulls low then high and adds one. The
stack's direction is the spec's decision D9 (log 8). -/
def Obligations.SubroutineCallAndReturn : Prop :=
  ∀ (w : Word) (s : State),
    let ret := pcPast s 2
    exec (.jsr w) s = .next { s with
      pc := w
      sp := s.sp - 2
      bus := (s.bus.write (stackAddr s.sp) (highByte ret)).write (stackAddr (s.sp - 1)) (lowByte ret) } ∧
    exec .rts s = .next { s with
      sp := s.sp + 2
      pc := wordOf (s.read (stackAddr (s.sp + 2))) (s.read (stackAddr (s.sp + 1))) + 1 }

/-- The eight branches: the operand byte is always consumed; a taken branch adds the signed displacement to the PC past
it, modulo 65536; nothing but PC changes. Which flag and polarity a mnemonic tests is the spec's decision D21. -/
def Obligations.BranchesAddDisplacementWhenTaken : Prop :=
  ∀ (i : Instr) (op : BranchOp) (d : Byte) (s : State), i.form = .branch op d →
    exec i s = .next { s with
      pc := if branchTaken op s.p then BitVec.ofInt 16 (s.pc.toNat + 2 + d.toInt) else pcPast s 2 }

/-- CLC, CLD, CLI, CLV, SEC, SED, SEI set or clear exactly one flag. Which one is the spec's decision D21. -/
def Obligations.FlagInstructionsWriteOneFlag : Prop :=
  ∀ s : State,
    let t (p : Status) : State := { s with pc := pcPast s 1, p := p }
    exec .clc s = .next (t { s.p with c := false }) ∧
    exec .cld s = .next (t { s.p with d := false }) ∧
    exec .cli s = .next (t { s.p with i := false }) ∧
    exec .clv s = .next (t { s.p with v := false }) ∧
    exec .sec s = .next (t { s.p with c := true }) ∧
    exec .sed s = .next (t { s.p with d := true }) ∧
    exec .sei s = .next (t { s.p with i := true })

/-- R229: NOP changes nothing but PC, which ends at the opcode address plus 1. -/
def Obligations.NopOnlyAdvancesPc : Prop :=
  ∀ s : State, exec .nop s = .next { s with pc := pcPast s 1 }

/-- BRK: the stored Break set (decision D12; log 11), the address past the signature byte and then the status byte pushed
with the old I, I set, PC from the vector (decision D6; log 8), the other five flags kept (decision D25); RTI pulls the
status, PC low, PC high (decision D23; log 17), with no plus one. -/
def Obligations.BreakEntersAndRtiReturns : Prop :=
  ∀ s : State,
    let ret := pcPast s 2
    let p := { s.p with b := true }
    let bus := ((s.bus.write (stackAddr s.sp) (highByte ret)).write (stackAddr (s.sp - 1)) (lowByte ret)).write
      (stackAddr (s.sp - 2)) p.toByte
    exec .brk s = .next { s with
      sp := s.sp - 3
      p := { p with i := true }
      bus := bus
      pc := wordOf (bus.read 0xFFFF) (bus.read 0xFFFE) } ∧
    exec .rti s = .next { s with
      sp := s.sp + 3
      p := Status.ofByte (s.read (stackAddr (s.sp + 1)))
      pc := wordOf (s.read (stackAddr (s.sp + 3))) (s.read (stackAddr (s.sp + 2))) }

/-! ## Frames -/

/-- The read-only-operand instructions store nothing: every byte reads as before, SP is kept, each register but the
destination is kept, and so is each flag the rule does not name. -/
def Obligations.ReadOnlyOperandFrame : Prop :=
  ∀ (i : Instr) (op : ReadOp) (o : Operand) (s t : State),
    i.form = .read op o → exec i s = .next t →
    SameMemory s t ∧ t.bus = s.bus ∧ t.sp = s.sp ∧
    (op ∉ [.lda, .and, .ora, .eor, .adc, .sbc] → t.a = s.a) ∧
    (op ≠ .ldx → t.x = s.x) ∧ (op ≠ .ldy → t.y = s.y) ∧
    t.p.i = s.p.i ∧ t.p.d = s.p.d ∧ t.p.b = s.p.b ∧
    (op ∉ [.adc, .sbc, .cmp, .cpx, .cpy] → t.p.c = s.p.c) ∧
    (op ∉ [.adc, .sbc, .bit] → t.p.v = s.p.v)

/-- The stores change at most the byte at the address their mode resolves to: no register, no flag, no other byte. -/
def Obligations.StoreFrame : Prop :=
  ∀ (i : Instr) (op : StoreOp) (m : AddrMode) (s t : State),
    i.form = .store op m → exec i s = .next t →
    (∀ a : Word, effAddr m s = a → SameMemoryBut [a] s t) ∧
    t.bus.map = s.bus.map ∧ t.a = s.a ∧ t.x = s.x ∧ t.y = s.y ∧ t.sp = s.sp ∧ t.p = s.p

/-- The read-modify-write instructions: the accumulator form stores nothing and changes A alone of the registers; a memory
form changes no register and at most the byte at its address. V, I, D, B are kept, and C by INC and DEC. -/
def Obligations.ReadModifyWriteFrame : Prop :=
  ∀ (i : Instr) (op : RmwOp) (g : Target) (s t : State),
    i.form = .rmw op g → exec i s = .next t →
    (g = .acc → SameMemory s t) ∧
    (∀ (m : AddrMode) (a : Word), g = .mem m → effAddr m s = a → SameMemoryBut [a] s t ∧ t.a = s.a) ∧
    t.bus.map = s.bus.map ∧ t.x = s.x ∧ t.y = s.y ∧ t.sp = s.sp ∧
    t.p.v = s.p.v ∧ t.p.i = s.p.i ∧ t.p.d = s.p.d ∧ t.p.b = s.p.b ∧
    (op = .inc ∨ op = .dec → t.p.c = s.p.c)

/-- The instructions that store nothing and take no operand from memory by a mode: transfers, register increments and
decrements, flag instructions, NOP, JMP, the branches, and the pulls PLA, PLP, RTS, RTI. Every byte reads as before;
JMP and the branches keep every register but PC and every flag; A, X, Y, SP change only where the rule writes them. -/
def Obligations.RegisterAndPullFrame : Prop :=
  ∀ (i : Instr) (s t : State), exec i s = .next t →
    (∀ w, i.form = .jump w ∨ i.form = .jumpInd w → t = { s with pc := t.pc }) ∧
    (∀ op d, i.form = .branch op d → t = { s with pc := t.pc }) ∧
    (∀ op, i.form = .implied op → op ∉ [.pha, .php, .brk] →
      SameMemory s t ∧ t.bus = s.bus ∧
      (op ∉ [.txa, .tya, .pla] → t.a = s.a) ∧
      (op ∉ [.tax, .tsx, .inx, .dex] → t.x = s.x) ∧
      (op ∉ [.tay, .iny, .dey] → t.y = s.y) ∧
      (op ∉ [.txs, .pla, .plp, .rts, .rti] → t.sp = s.sp) ∧
      (op ∈ [.txs, .rts, .nop] → t.p = s.p) ∧
      (op ∈ [.tax, .tay, .txa, .tya, .tsx, .inx, .iny, .dex, .dey, .pla] →
        t.p = { s.p with z := t.p.z, n := t.p.n }) ∧
      (op ∈ [.clc, .sec] → t.p = { s.p with c := t.p.c }) ∧
      (op ∈ [.cld, .sed] → t.p = { s.p with d := t.p.d }) ∧
      (op ∈ [.cli, .sei] → t.p = { s.p with i := t.p.i }) ∧
      (op = .clv → t.p = { s.p with v := t.p.v }))

/-- The pushing instructions PHA, PHP, JSR, BRK store to the stack slots from SP down and nowhere else, keep A, X and Y, and
keep every flag, but for BRK's B and I. The stack's direction is the spec's decision D9 (log 8). -/
def Obligations.PushFrame : Prop :=
  ∀ (i : Instr) (s t : State), exec i s = .next t →
    (i.form = .implied .pha ∨ i.form = .implied .php →
      SameMemoryBut [stackAddr s.sp] s t ∧ t.bus.map = s.bus.map ∧
      t.a = s.a ∧ t.x = s.x ∧ t.y = s.y ∧ t.sp = s.sp - 1 ∧ t.p = s.p) ∧
    (∀ w, i.form = .call w →
      SameMemoryBut [stackAddr s.sp, stackAddr (s.sp - 1)] s t ∧ t.bus.map = s.bus.map ∧
      t.a = s.a ∧ t.x = s.x ∧ t.y = s.y ∧ t.sp = s.sp - 2 ∧ t.p = s.p) ∧
    (i.form = .implied .brk →
      SameMemoryBut [stackAddr s.sp, stackAddr (s.sp - 1), stackAddr (s.sp - 2)] s t ∧ t.bus.map = s.bus.map ∧
      t.a = s.a ∧ t.x = s.x ∧ t.y = s.y ∧ t.sp = s.sp - 3 ∧ t.p = { s.p with b := true, i := true })

/-! ## Whole-machine rules -/

/-- R23: a flag changes only by an instruction its row of the table names. -/
def Obligations.FlagsChangeOnlyByTheirWriters : Prop :=
  ∀ (i : Instr) (s t : State), exec i s = .next t →
    (t.p.c ≠ s.p.c → writesC i.form = true) ∧
    (t.p.z ≠ s.p.z → writesNZ i.form = true) ∧
    (t.p.n ≠ s.p.n → writesNZ i.form = true) ∧
    (t.p.i ≠ s.p.i → writesI i.form = true) ∧
    (t.p.d ≠ s.p.d → writesD i.form = true) ∧
    (t.p.b ≠ s.p.b → writesB i.form = true) ∧
    (t.p.v ≠ s.p.v → writesV i.form = true)

/-- R13 to R16: a register changes only by an instruction its rule names. -/
def Obligations.RegistersChangeOnlyByTheirWriters : Prop :=
  ∀ (i : Instr) (s t : State), exec i s = .next t →
    (t.a ≠ s.a → writesA i.form = true) ∧
    (t.x ≠ s.x → writesX i.form = true) ∧
    (t.y ≠ s.y → writesY i.form = true) ∧
    (t.sp ≠ s.sp → writesSP i.form = true)

/-- R18: an instruction that is not a control transfer leaves PC at the opcode address plus its length, modulo 65536, and
its length is that of its encoding. -/
def Obligations.OtherInstructionsFallThrough : Prop :=
  ∀ (i : Instr) (s t : State), exec i s = .next t → transfersControl i.form = false →
    t.pc = pcPast s (encode i).length

/-! ## Round trips -/

/-- R50, R51: the stack slot of SP lies in the stack page, and a pull after a push returns the byte and restores SP. The
stack's direction is the spec's decision D9 (log 8). -/
def Obligations.PullReturnsWhatWasPushed : Prop :=
  ∀ (s : State) (v : Byte),
    (stackAddr s.sp).toNat = 256 + s.sp.toNat ∧
    (RamStack s → (s.push v).pulledByte = v ∧ (s.push v).afterPull.sp = s.sp)

/-- S5: RTS after JSR resumes at the address after the JSR, with SP and every other register as before. Rests on the
spec's decision D9 (log 8) for the stack. -/
def Obligations.RtsReturnsAfterJsr : Prop :=
  ∀ (s : State) (w : Word), RamStack s →
    ∃ t u, exec (.jsr w) s = .next t ∧ exec .rts t = .next u ∧ u = { s with pc := pcPast s 3, bus := u.bus }

/-- RTI after BRK restores what the entry saved: PC past the signature byte, SP, and every flag but Break, which the pushed
byte holds set (R221; decisions D12 and D23; logs 11 and 17). -/
def Obligations.RtiRestoresWhatBrkSaved : Prop :=
  ∀ s : State, RamStack s →
    ∃ t u, exec .brk s = .next t ∧ exec .rti t = .next u ∧
      u = { s with pc := pcPast s 2, p := { s.p with b := true }, bus := u.bus }

/-- The litmus of R63: an instruction stored by STA just behind itself is what the next step runs, with no delay. -/
def Obligations.StoredInstructionRunsNext : Prop :=
  ∀ s : State, s.wf = true → s.bus.map.backing (s.pc + 3).toNat = .ram →
    decode [s.read s.pc, s.read (s.pc + 1), s.read (s.pc + 2)] = .ok (.staAbs (s.pc + 3), []) →
    s.a = 0xE8 →
    ∃ t u, step s = .next t ∧ step t = .next u ∧ t.x = s.x ∧ u.x = s.x + 1 ∧ u.pc = s.pc + 4

/-! ## The host's moves -/

/-- R245: a hardware interrupt request is taken exactly where I is clear, saves PC and the status byte with Break clear,
and sets I; a masked one changes nothing. It is no step and issues no bus tick. The move and its gating are the spec's
decision D16 (log 14), the vector D6 (log 8). -/
def Obligations.InterruptRequestIsGatedByI : Prop :=
  ∀ s : State,
    let p := { s.p with b := false }
    let bus := ((s.bus.write (stackAddr s.sp) (highByte s.pc)).write (stackAddr (s.sp - 1)) (lowByte s.pc)).write
      (stackAddr (s.sp - 2)) p.toByte
    (s.p.i = true → s.interruptRequest = s) ∧
    (s.p.i = false → s.interruptRequest = { s with
      sp := s.sp - 3
      p := { p with i := true }
      bus := bus
      pc := wordOf (bus.read 0xFFFF) (bus.read 0xFFFE) })

/-- R248: RTI after a hardware interrupt resumes the interrupted program with its registers and every flag but Break, which
the entry cleared (decisions D12 and D16; logs 11 and 14). -/
def Obligations.RtiResumesInterruptedProgram : Prop :=
  ∀ s : State, RamStack s → s.p.i = false →
    ∃ u, exec .rti s.interruptRequest = .next u ∧ u = { s with p := { s.p with b := false }, bus := u.bus }

/-- R270: reset, for every bus and every value of the open parameter SP_RESET (D7; log 1). The zeros are the spec's
decision D8 (log 9), the vector D5 (log 8), the order D17 (log 16); that the stores keep their bytes is the model's
choice (log 5), and so is the tick count (log 7). -/
def Obligations.ResetLoadsPcFromTheVector : Prop :=
  ∀ (spReset : Byte) (b : Bus),
    resetState spReset b =
      { a := 0, x := 0, y := 0, sp := spReset, pc := wordOf (b.read 0xFFFD) (b.read 0xFFFC),
        p := { c := false, z := false, i := true, d := false, b := false, v := false, n := false },
        bus := { b with ticks := 0 } }

/-- R28, R271, R246: before the first reset a step and an interrupt request are refused by name (decision D24; log 19) and a
reset is not; afterwards a reset keeps no register state, and a step is `step`. -/
def Obligations.SessionStartsWithReset : Prop :=
  (∀ b : Bus,
    Session.move .step (.constructed b) = .refused .beforeFirstReset ∧
    Session.move .interruptRequest (.constructed b) = .refused .beforeFirstReset ∧
    ∃ s, Session.move .reset (.constructed b) = .next (.running s)) ∧
  (∀ s s' : State, s.bus = s'.bus → Session.move .reset (.running s) = Session.move .reset (.running s')) ∧
  (∀ s t : State, step s = .next t → Session.move .step (.running s) = .next (.running t)) ∧
  (∀ (s : State) (f : Fault), step s = .fault f → Session.move .step (.running s) = .fault f)
end

