-- ==== Sys2Proof/Laws/Bits.lean ====
section
/-! SUPPORT. Bytes of words and words of bytes. -/

namespace Sys2Proof

theorem wordOf_toNat (hi lo : Byte) : (wordOf hi lo).toNat = hi.toNat * 256 + lo.toNat := by
  have h : (wordOf hi lo).toNat = hi.toNat <<< 8 ||| lo.toNat := BitVec.toNat_append hi lo
  rw [h, ← Nat.shiftLeft_add_eq_or_of_lt lo.isLt, Nat.shiftLeft_eq]

theorem lowByte_toNat (w : Word) : (lowByte w).toNat = w.toNat % 256 := by
  simp [lowByte, BitVec.extractLsb'_toNat]

theorem highByte_toNat (w : Word) : (highByte w).toNat = w.toNat / 256 := by
  have h := w.isLt
  simp only [highByte, BitVec.extractLsb'_toNat, Nat.shiftRight_eq_div_pow]
  omega

@[simp] theorem lowByte_wordOf (hi lo : Byte) : lowByte (wordOf hi lo) = lo := by
  apply BitVec.eq_of_toNat_eq
  have h := lo.isLt
  rw [lowByte_toNat, wordOf_toNat]
  omega

@[simp] theorem highByte_wordOf (hi lo : Byte) : highByte (wordOf hi lo) = hi := by
  apply BitVec.eq_of_toNat_eq
  have h := lo.isLt
  rw [highByte_toNat, wordOf_toNat]
  omega

@[simp] theorem wordOf_highByte_lowByte (w : Word) : wordOf (highByte w) (lowByte w) = w := by
  apply BitVec.eq_of_toNat_eq
  rw [wordOf_toNat, highByte_toNat, lowByte_toNat]
  omega

theorem zext16_toNat (v : Byte) : (zext16 v).toNat = v.toNat := by
  have h := v.isLt
  simp only [zext16, BitVec.toNat_setWidth]
  omega

theorem zext16_injective {v w : Byte} (h : zext16 v = zext16 w) : v = w := by
  apply BitVec.eq_of_toNat_eq
  rw [← zext16_toNat, ← zext16_toNat, h]

/-- `sext_16` as 00_scope.md section 6 writes it: `v` if `v < 128`, else `v + 0xFF00`. -/
theorem sext16_eq (v : Byte) : sext16 v = if v.toNat < 128 then zext16 v else zext16 v + 0xFF00 := by
  revert v
  decide

end Sys2Proof
end

