-- ==== Sys2Proof/Laws/Memory.lean ====
section
/-! SUPPORT. The cells: a write is read back, leaves every other address alone, and keeps the canonical form, in which
equal contents are equal lists. -/

namespace Sys2Proof.Machine

@[simp] theorem Memory.get_nil (k : Nat) : Memory.get [] k = blankByte := rfl

theorem Memory.risesFrom_cons {lo a : Nat} {v : Byte} {rest : Memory} :
    Memory.risesFrom lo ((a, v) :: rest) = true ↔
      lo ≤ a ∧ a < 65536 ∧ v ≠ blankByte ∧ Memory.risesFrom (a + 1) rest = true := by
  simp [Memory.risesFrom, and_assoc]

theorem Memory.risesFrom_weaken {lo lo' : Nat} {m : Memory} (h : Memory.risesFrom lo' m = true)
    (hle : lo ≤ lo') : Memory.risesFrom lo m = true := by
  cases m with
  | nil => rfl
  | cons c rest =>
    obtain ⟨a, v⟩ := c
    rw [Memory.risesFrom_cons] at h ⊢
    exact ⟨by omega, h.2⟩

/-- Below its first address a rising list reads blank. -/
theorem Memory.get_below {lo k : Nat} {m : Memory} (h : Memory.risesFrom lo m = true) (hk : k < lo) :
    Memory.get m k = blankByte := by
  induction m generalizing lo with
  | nil => rfl
  | cons c rest ih =>
    obtain ⟨a, v⟩ := c
    rw [Memory.risesFrom_cons] at h
    have hne : a ≠ k := by omega
    simp only [Memory.get, hne, if_false]
    exact ih h.2.2.2 (by omega)

/-- A write leaves every other address alone, whatever the list. -/
theorem Memory.get_set_ne {m : Memory} {k j : Nat} {v : Byte} (h : j ≠ k) :
    Memory.get (Memory.set m k v) j = Memory.get m j := by
  have h' : k ≠ j := Ne.symm h
  induction m with
  | nil => by_cases hv : v = blankByte <;> simp [Memory.set, Memory.get, hv, h']
  | cons c rest ih =>
    obtain ⟨a, w⟩ := c
    unfold Memory.set
    split
    · by_cases hv : v = blankByte <;> simp [Memory.get, hv, h']
    · split
      · rename_i hka
        subst hka
        by_cases hv : v = blankByte <;> simp [Memory.get, hv, h']
      · by_cases haj : a = j <;> simp [Memory.get, haj, ih]

/-- A write is read back. -/
theorem Memory.get_set_same {lo : Nat} {m : Memory} {k : Nat} {v : Byte}
    (h : Memory.risesFrom lo m = true) : Memory.get (Memory.set m k v) k = v := by
  induction m generalizing lo with
  | nil => by_cases hv : v = blankByte <;> simp [Memory.set, Memory.get, hv]
  | cons c rest ih =>
    obtain ⟨a, w⟩ := c
    rw [Memory.risesFrom_cons] at h
    unfold Memory.set
    split
    · rename_i hka
      by_cases hv : v = blankByte
      · have hb : Memory.get rest k = blankByte := Memory.get_below h.2.2.2 (by omega)
        have hne : a ≠ k := by omega
        simp [Memory.get, hv, hne, hb]
      · simp [Memory.get, hv]
    · split
      · rename_i hka
        subst hka
        by_cases hv : v = blankByte
        · have hb : Memory.get rest k = blankByte := Memory.get_below h.2.2.2 (by omega)
          simp [hv, hb]
        · simp [Memory.get, hv]
      · rename_i hne
        have hne' : a ≠ k := by omega
        simp [Memory.get, hne', ih h.2.2.2]

theorem Memory.risesFrom_set {lo k : Nat} {m : Memory} {v : Byte}
    (h : Memory.risesFrom lo m = true) (hlo : lo ≤ k) (hk : k < 65536) :
    Memory.risesFrom lo (Memory.set m k v) = true := by
  induction m generalizing lo with
  | nil =>
    by_cases hv : v = blankByte
    · simp [Memory.set, hv, Memory.risesFrom]
    · simp [Memory.set, hv, Memory.risesFrom, hlo, hk]
  | cons c rest ih =>
    obtain ⟨a, w⟩ := c
    have h0 := h
    rw [Memory.risesFrom_cons] at h
    unfold Memory.set
    split
    · by_cases hv : v = blankByte
      · simpa [hv] using h0
      · simp only [hv, if_false, Memory.risesFrom_cons]
        exact ⟨hlo, hk, hv, by omega, h.2.1, h.2.2.1, h.2.2.2⟩
    · split
      · rename_i hka
        subst hka
        by_cases hv : v = blankByte
        · simp only [hv, if_true]
          exact Memory.risesFrom_weaken h.2.2.2 (by omega)
        · simp only [hv, if_false, Memory.risesFrom_cons]
          exact ⟨hlo, hk, hv, h.2.2.2⟩
      · rw [Memory.risesFrom_cons]
        exact ⟨h.1, h.2.1, h.2.2.1, ih h.2.2.2 (by omega)⟩

/-- Every memory operation keeps the canonical form. -/
theorem Memory.wf_set {m : Memory} {k : Nat} {v : Byte} (h : Memory.wf m = true) (hk : k < 65536) :
    Memory.wf (Memory.set m k v) = true :=
  Memory.risesFrom_set h (Nat.zero_le k) hk

/-- A cell of the list after a write is the written one or was there before. -/
theorem Memory.mem_set {m : Memory} {k : Nat} {v : Byte} {c : Host.Cell} (h : c ∈ Memory.set m k v) :
    c = (k, v) ∨ c ∈ m := by
  induction m with
  | nil =>
    by_cases hv : v = blankByte
    · simp [Memory.set, hv] at h
    · left; simpa [Memory.set, hv] using h
  | cons d rest ih =>
    obtain ⟨a, w⟩ := d
    unfold Memory.set at h
    split at h
    · by_cases hv : v = blankByte
      · right; simpa [hv] using h
      · simp only [hv, if_false, List.mem_cons] at h ⊢; tauto
    · split at h
      · by_cases hv : v = blankByte
        · right; simp only [hv, if_true] at h; exact List.mem_cons_of_mem _ h
        · simp only [hv, if_false, List.mem_cons] at h ⊢; tauto
      · simp only [List.mem_cons] at h ⊢
        rcases h with h | h
        · tauto
        · rcases ih h with h | h <;> tauto

end Sys2Proof.Machine
end

