-- ==== Sys2Proof/Laws/Bus.lean ====
section
/-! SUPPORT. The bus: what a write does to every read, that the map never changes, and that every operation keeps the bus
in order. -/

namespace Sys2Proof.Machine

@[simp] theorem Store.tick_eq (st : Store) : st.tick = st := by
  induction st with
  | leaf k => rfl
  | empty => rfl
  | attach r start c ihr ihc => simp [Store.tick, ihr, ihc]

@[simp] theorem Store.reset_eq (st : Store) : st.reset = st := by
  induction st with
  | leaf k => rfl
  | empty => rfl
  | attach r start c ihr ihc => simp [Store.reset, ihr, ihc]

@[simp] theorem Bus.tick_map (b : Bus) : b.tick.map = b.map := by simp [Bus.tick]
@[simp] theorem Bus.tick_cells (b : Bus) : b.tick.cells = b.cells := rfl
@[simp] theorem Bus.tick_ticks (b : Bus) : b.tick.ticks = b.ticks + 1 := rfl
@[simp] theorem Bus.reset_map (b : Bus) : b.reset.map = b.map := by simp [Bus.reset]
@[simp] theorem Bus.reset_cells (b : Bus) : b.reset.cells = b.cells := rfl
@[simp] theorem Bus.reset_ticks (b : Bus) : b.reset.ticks = 0 := rfl

@[simp] theorem Bus.write_map (b : Bus) (a : Word) (v : Byte) : (b.write a v).map = b.map := by
  unfold Bus.write; split <;> rfl

@[simp] theorem Bus.write_ticks (b : Bus) (a : Word) (v : Byte) : (b.write a v).ticks = b.ticks := by
  unfold Bus.write; split <;> rfl

/-- A read depends on the map and the cells alone. -/
theorem Bus.read_congr {b b' : Bus} (hm : b'.map = b.map) (hc : b'.cells = b.cells) (a : Word) :
    b'.read a = b.read a := by
  simp [Bus.read, hm, hc]

@[simp] theorem Bus.read_tick (b : Bus) (a : Word) : b.tick.read a = b.read a :=
  Bus.read_congr (Bus.tick_map b) rfl a

@[simp] theorem Bus.read_reset (b : Bus) (a : Word) : b.reset.read a = b.read a :=
  Bus.read_congr (Bus.reset_map b) rfl a

/-- All that a write can do: it changes the cells at its own address where a RAM store answers, and else nothing. -/
theorem Bus.write_cases (b : Bus) (a : Word) (v : Byte) :
    (b.map.backing a.toNat = .ram ∧ b.write a v = { b with cells := Memory.set b.cells a.toNat v }) ∨
    (b.map.backing a.toNat ≠ .ram ∧ b.write a v = b) := by
  unfold Bus.write
  cases h : b.map.backing a.toNat <;> simp

/-- A write leaves every read of another address alone. -/
theorem Bus.read_write_ne (b : Bus) {a k : Word} (v : Byte) (h : k ≠ a) :
    (b.write a v).read k = b.read k := by
  have hn : k.toNat ≠ a.toNat := fun e => h (BitVec.eq_of_toNat_eq e)
  rcases Bus.write_cases b a v with ⟨_, e⟩ | ⟨_, e⟩
  · rw [e]; simp [Bus.read, Memory.get_set_ne hn]
  · rw [e]

/-- Where a RAM store answers, a write is read back. -/
theorem Bus.read_write_same {b : Bus} {a : Word} (v : Byte) (hc : Memory.wf b.cells = true)
    (hr : b.map.backing a.toNat = .ram) : (b.write a v).read a = v := by
  have e : b.write a v = { b with cells := Memory.set b.cells a.toNat v } := by simp [Bus.write, hr]
  simp only [e, Bus.read, hr]
  exact Memory.get_set_same (lo := 0) hc

/-- Where none does, it is dropped. -/
theorem Bus.write_dropped {b : Bus} {a : Word} (v : Byte) (hr : b.map.backing a.toNat ≠ .ram) :
    b.write a v = b := by
  rcases Bus.write_cases b a v with ⟨h, _⟩ | ⟨_, e⟩
  · exact absurd h hr
  · exact e

theorem Bus.wf_iff {b : Bus} : b.wf = true ↔ Memory.wf b.cells = true ∧ b.map.wf = true ∧
    ∀ c ∈ b.cells, (b.map.backing c.1).retains = true := by
  simp [Bus.wf, and_assoc]

theorem Bus.wf_cells {b : Bus} (h : b.wf = true) : Memory.wf b.cells = true := (Bus.wf_iff.mp h).1

/-- A write keeps the bus in order. -/
theorem Bus.wf_write {b : Bus} (h : b.wf = true) (a : Word) (v : Byte) : (b.write a v).wf = true := by
  rcases Bus.write_cases b a v with ⟨hr, e⟩ | ⟨_, e⟩
  · rw [Bus.wf_iff] at h
    rw [e, Bus.wf_iff]
    refine ⟨Memory.wf_set h.1 a.isLt, h.2.1, fun c hc => ?_⟩
    rcases Memory.mem_set hc with hc | hc
    · simp [hc, hr, Backing.retains]
    · exact h.2.2 c hc
  · rw [e]; exact h

/-- Being in order is a matter of the map and the cells alone. -/
theorem Bus.wf_congr {b b' : Bus} (hm : b'.map = b.map) (hc : b'.cells = b.cells) : b'.wf = b.wf := by
  simp [Bus.wf, hm, hc]

@[simp] theorem Bus.wf_tick (b : Bus) : b.tick.wf = b.wf := Bus.wf_congr (Bus.tick_map b) rfl
@[simp] theorem Bus.wf_reset (b : Bus) : b.reset.wf = b.wf := Bus.wf_congr (Bus.reset_map b) rfl

end Sys2Proof.Machine
end

