-- ==== Sys2Proof/Laws/Decode.lean ====
section
/-! SUPPORT. The decoder, by the row its opcode byte selects. -/

namespace Sys2Proof

/-- The opcode map is a map: no byte stands in it twice (R70, R74). -/
theorem opTable_nodup : (opTable.map OpRow.opcode).Nodup := by
  decide +kernel

/-- 151 assigned bytes (R74). -/
theorem opTable_length : opTable.length = 151 := by decide +kernel

theorem decode_nil : decode [] = .error .truncated := rfl

theorem decode_unassigned {op : Byte} (h : opLookup op = none) (rest : List Byte) :
    decode (op :: rest) = .error (.unassigned op) := by
  simp [decode, h]

/-- Three bytes always hold a whole instruction, if the first is assigned at all. -/
theorem decode_three {op b c : Byte} {r : OpRow} (h : opLookup op = some r) :
    ∃ i rest, decode [op, b, c] = .ok (i, rest) := by
  obtain ⟨_, make⟩ := r
  cases make <;> simp [decode, h]

end Sys2Proof
end

