-- ==== Sys2Proof/Laws/State.lean ====
section
/-! SUPPORT. One lemma per field per update, true by rfl, so that no later proof unfolds a record update. -/

namespace Sys2Proof.Machine

@[simp] theorem State.past_a (s : State) (n : Nat) : (s.past n).a = s.a := rfl
@[simp] theorem State.past_x (s : State) (n : Nat) : (s.past n).x = s.x := rfl
@[simp] theorem State.past_y (s : State) (n : Nat) : (s.past n).y = s.y := rfl
@[simp] theorem State.past_sp (s : State) (n : Nat) : (s.past n).sp = s.sp := rfl
@[simp] theorem State.past_pc (s : State) (n : Nat) : (s.past n).pc = s.pc + BitVec.ofNat 16 n := rfl
@[simp] theorem State.past_p (s : State) (n : Nat) : (s.past n).p = s.p := rfl
@[simp] theorem State.past_bus (s : State) (n : Nat) : (s.past n).bus = s.bus := rfl

@[simp] theorem State.write_a (s : State) (k : Word) (v : Byte) : (s.write k v).a = s.a := rfl
@[simp] theorem State.write_x (s : State) (k : Word) (v : Byte) : (s.write k v).x = s.x := rfl
@[simp] theorem State.write_y (s : State) (k : Word) (v : Byte) : (s.write k v).y = s.y := rfl
@[simp] theorem State.write_sp (s : State) (k : Word) (v : Byte) : (s.write k v).sp = s.sp := rfl
@[simp] theorem State.write_pc (s : State) (k : Word) (v : Byte) : (s.write k v).pc = s.pc := rfl
@[simp] theorem State.write_p (s : State) (k : Word) (v : Byte) : (s.write k v).p = s.p := rfl
@[simp] theorem State.write_bus (s : State) (k : Word) (v : Byte) : (s.write k v).bus = s.bus.write k v := rfl

@[simp] theorem State.push_a (s : State) (v : Byte) : (s.push v).a = s.a := rfl
@[simp] theorem State.push_x (s : State) (v : Byte) : (s.push v).x = s.x := rfl
@[simp] theorem State.push_y (s : State) (v : Byte) : (s.push v).y = s.y := rfl
@[simp] theorem State.push_sp (s : State) (v : Byte) : (s.push v).sp = s.sp - 1 := rfl
@[simp] theorem State.push_pc (s : State) (v : Byte) : (s.push v).pc = s.pc := rfl
@[simp] theorem State.push_p (s : State) (v : Byte) : (s.push v).p = s.p := rfl
@[simp] theorem State.push_bus (s : State) (v : Byte) : (s.push v).bus = s.bus.write (stackAddr s.sp) v := rfl

@[simp] theorem State.afterPull_a (s : State) : (s.afterPull).a = s.a := rfl
@[simp] theorem State.afterPull_x (s : State) : (s.afterPull).x = s.x := rfl
@[simp] theorem State.afterPull_y (s : State) : (s.afterPull).y = s.y := rfl
@[simp] theorem State.afterPull_sp (s : State) : (s.afterPull).sp = s.sp + 1 := rfl
@[simp] theorem State.afterPull_pc (s : State) : (s.afterPull).pc = s.pc := rfl
@[simp] theorem State.afterPull_p (s : State) : (s.afterPull).p = s.p := rfl
@[simp] theorem State.afterPull_bus (s : State) : (s.afterPull).bus = s.bus := rfl

@[simp] theorem State.pushWord_a (s : State) (w : Word) : (s.pushWord w).a = s.a := rfl
@[simp] theorem State.pushWord_x (s : State) (w : Word) : (s.pushWord w).x = s.x := rfl
@[simp] theorem State.pushWord_y (s : State) (w : Word) : (s.pushWord w).y = s.y := rfl
@[simp] theorem State.pushWord_sp (s : State) (w : Word) : (s.pushWord w).sp = s.sp - 1 - 1 := rfl
@[simp] theorem State.pushWord_pc (s : State) (w : Word) : (s.pushWord w).pc = s.pc := rfl
@[simp] theorem State.pushWord_p (s : State) (w : Word) : (s.pushWord w).p = s.p := rfl
@[simp] theorem State.pushWord_bus (s : State) (w : Word) : (s.pushWord w).bus = (s.bus.write (stackAddr s.sp) (highByte w)).write (stackAddr (s.sp - 1)) (lowByte w) := rfl

@[simp] theorem State.setNZ_a (s : State) (v : Byte) : (s.setNZ v).a = s.a := rfl
@[simp] theorem State.setNZ_x (s : State) (v : Byte) : (s.setNZ v).x = s.x := rfl
@[simp] theorem State.setNZ_y (s : State) (v : Byte) : (s.setNZ v).y = s.y := rfl
@[simp] theorem State.setNZ_sp (s : State) (v : Byte) : (s.setNZ v).sp = s.sp := rfl
@[simp] theorem State.setNZ_pc (s : State) (v : Byte) : (s.setNZ v).pc = s.pc := rfl
@[simp] theorem State.setNZ_p (s : State) (v : Byte) : (s.setNZ v).p = { s.p with z := v == 0, n := v.getLsbD 7 } := rfl
@[simp] theorem State.setNZ_bus (s : State) (v : Byte) : (s.setNZ v).bus = s.bus := rfl

@[simp] theorem State.aluCompare_a (s : State) (r v : Byte) : (s.aluCompare r v).a = s.a := rfl
@[simp] theorem State.aluCompare_x (s : State) (r v : Byte) : (s.aluCompare r v).x = s.x := rfl
@[simp] theorem State.aluCompare_y (s : State) (r v : Byte) : (s.aluCompare r v).y = s.y := rfl
@[simp] theorem State.aluCompare_sp (s : State) (r v : Byte) : (s.aluCompare r v).sp = s.sp := rfl
@[simp] theorem State.aluCompare_pc (s : State) (r v : Byte) : (s.aluCompare r v).pc = s.pc := rfl
@[simp] theorem State.aluCompare_p (s : State) (r v : Byte) : (s.aluCompare r v).p = { s.p with c := decide (v.toNat ≤ r.toNat), z := r - v == 0, n := (r - v).getLsbD 7 } := rfl
@[simp] theorem State.aluCompare_bus (s : State) (r v : Byte) : (s.aluCompare r v).bus = s.bus := rfl

@[simp] theorem State.aluAdd_a (s : State) (v : Byte) : (s.aluAdd v).a = BitVec.ofNat 8 (s.a.toNat + v.toNat + s.p.c.toNat) := rfl
@[simp] theorem State.aluAdd_x (s : State) (v : Byte) : (s.aluAdd v).x = s.x := rfl
@[simp] theorem State.aluAdd_y (s : State) (v : Byte) : (s.aluAdd v).y = s.y := rfl
@[simp] theorem State.aluAdd_sp (s : State) (v : Byte) : (s.aluAdd v).sp = s.sp := rfl
@[simp] theorem State.aluAdd_pc (s : State) (v : Byte) : (s.aluAdd v).pc = s.pc := rfl
@[simp] theorem State.aluAdd_bus (s : State) (v : Byte) : (s.aluAdd v).bus = s.bus := rfl

@[simp] theorem State.aluSubtract_a (s : State) (v : Byte) : (s.aluSubtract v).a = BitVec.ofNat 8 (s.a.toNat + (v ^^^ 0xFF).toNat + s.p.c.toNat) := rfl
@[simp] theorem State.aluSubtract_x (s : State) (v : Byte) : (s.aluSubtract v).x = s.x := rfl
@[simp] theorem State.aluSubtract_y (s : State) (v : Byte) : (s.aluSubtract v).y = s.y := rfl
@[simp] theorem State.aluSubtract_sp (s : State) (v : Byte) : (s.aluSubtract v).sp = s.sp := rfl
@[simp] theorem State.aluSubtract_pc (s : State) (v : Byte) : (s.aluSubtract v).pc = s.pc := rfl
@[simp] theorem State.aluSubtract_bus (s : State) (v : Byte) : (s.aluSubtract v).bus = s.bus := rfl

@[simp] theorem State.interruptEntry_a (s : State) (sw : Bool) : (s.interruptEntry sw).a = s.a := rfl
@[simp] theorem State.interruptEntry_x (s : State) (sw : Bool) : (s.interruptEntry sw).x = s.x := rfl
@[simp] theorem State.interruptEntry_y (s : State) (sw : Bool) : (s.interruptEntry sw).y = s.y := rfl
@[simp] theorem State.interruptEntry_sp (s : State) (sw : Bool) : (s.interruptEntry sw).sp = s.sp - 1 - 1 - 1 := rfl
@[simp] theorem State.interruptEntry_p (s : State) (sw : Bool) : (s.interruptEntry sw).p = { s.p with b := sw, i := true } := rfl
@[simp] theorem State.interruptEntry_bus (s : State) (sw : Bool) : (s.interruptEntry sw).bus = ((s.bus.write (stackAddr s.sp) (highByte s.pc)).write (stackAddr (s.sp - 1)) (lowByte s.pc)).write
      (stackAddr (s.sp - 1 - 1)) (Status.toByte { s.p with b := sw }) := rfl

@[simp] theorem State.interruptReturn_a (s : State) : (s.interruptReturn).a = s.a := rfl
@[simp] theorem State.interruptReturn_x (s : State) : (s.interruptReturn).x = s.x := rfl
@[simp] theorem State.interruptReturn_y (s : State) : (s.interruptReturn).y = s.y := rfl
@[simp] theorem State.interruptReturn_sp (s : State) : (s.interruptReturn).sp = s.sp + 1 + 1 + 1 := rfl
@[simp] theorem State.interruptReturn_p (s : State) : (s.interruptReturn).p = Status.ofByte s.pulledByte := rfl
@[simp] theorem State.interruptReturn_bus (s : State) : (s.interruptReturn).bus = s.bus := rfl

/-- The PC an interrupt entry loads: the vector's two bytes as they stand after the three pushes. -/
theorem State.interruptEntry_pc (s : State) (sw : Bool) :
    (s.interruptEntry sw).pc = wordOf ((s.interruptEntry sw).read 0xFFFF) ((s.interruptEntry sw).read 0xFFFE) := rfl

theorem State.interruptReturn_pc (s : State) :
    s.interruptReturn.pc = wordOf (s.read (stackAddr (s.sp + 1 + 1 + 1))) (s.read (stackAddr (s.sp + 1 + 1))) := rfl

theorem State.aluAdd_p (s : State) (v : Byte) :
    (s.aluAdd v).p = { s.p with
      c := decide (256 ≤ s.a.toNat + v.toNat + s.p.c.toNat)
      v := (s.a.getLsbD 7 == v.getLsbD 7) && ((s.aluAdd v).a.getLsbD 7 != s.a.getLsbD 7)
      z := (s.aluAdd v).a == 0
      n := (s.aluAdd v).a.getLsbD 7 } := rfl

@[simp] theorem targetWrite_x (t : Target) (v : Byte) (s : State) : (targetWrite t v s).x = s.x := by cases t <;> rfl
@[simp] theorem targetWrite_y (t : Target) (v : Byte) (s : State) : (targetWrite t v s).y = s.y := by cases t <;> rfl
@[simp] theorem targetWrite_sp (t : Target) (v : Byte) (s : State) : (targetWrite t v s).sp = s.sp := by cases t <;> rfl
@[simp] theorem targetWrite_pc (t : Target) (v : Byte) (s : State) : (targetWrite t v s).pc = s.pc := by cases t <;> rfl
@[simp] theorem targetWrite_p (t : Target) (v : Byte) (s : State) : (targetWrite t v s).p = s.p := by cases t <;> rfl
@[simp] theorem targetWrite_acc (v : Byte) (s : State) : targetWrite .acc v s = { s with a := v } := rfl
@[simp] theorem targetWrite_mem (m : AddrMode) (v : Byte) (s : State) :
    targetWrite (.mem m) v s = s.write (effAddr m s) v := rfl

theorem State.read_eq (s : State) (k : Word) : s.read k = s.bus.read k := rfl

/-- A read looks at the bus alone. -/
theorem State.read_congr {s t : State} (h : t.bus = s.bus) (k : Word) : t.read k = s.read k := by
  simp [State.read, h]

/-- An effective address depends on X, Y and the bus alone. -/
theorem effAddr_congr {s t : State} (hx : t.x = s.x) (hy : t.y = s.y) (hb : t.bus = s.bus) (m : AddrMode) :
    effAddr m t = effAddr m s := by
  cases m <;> simp [effAddr, State.readWordZp, State.read, hx, hy, hb]

theorem stackAddr_toNat (sp : Byte) : (stackAddr sp).toNat = 256 + sp.toNat := by
  have h := sp.isLt
  have h0 : (0x0100 : Word).toNat = 256 := rfl
  simp only [stackAddr, Config.stackPage, BitVec.toNat_add, zext16_toNat, h0]
  omega

theorem stackAddr_injective {p q : Byte} (h : stackAddr p = stackAddr q) : p = q := by
  have := congrArg BitVec.toNat h
  rw [stackAddr_toNat, stackAddr_toNat] at this
  exact BitVec.eq_of_toNat_eq (by omega)

end Sys2Proof.Machine
end

