-- ==== Sys2Proof/Laws/Dispatch.lean ====
section
/-! SUPPORT. What `exec` runs, by the instruction's form: 151 arms brought down to 56 mnemonics. A proof about all the
forms of a mnemonic rewrites with `exec_eq_run` and goes on from the shared operation. -/

namespace Sys2Proof.Machine

/-- The shared operation of each form. The form of an opcode the table does not have still has one; no instruction reaches
it. INC and DEC have no accumulator form, so theirs leaves the state. -/
def runForm : Form → State → Result
  | .read .lda o, s => lda o s
  | .read .ldx o, s => ldx o s
  | .read .ldy o, s => ldy o s
  | .read .and o, s => andWith o s
  | .read .ora o, s => oraWith o s
  | .read .eor o, s => eorWith o s
  | .read .bit o, s => bitTest o s
  | .read .adc o, s => adc o s
  | .read .sbc o, s => sbc o s
  | .read .cmp o, s => cmpWith o s
  | .read .cpx o, s => cpx o s
  | .read .cpy o, s => cpy o s
  | .store .sta m, s => sta m s
  | .store .stx m, s => stx m s
  | .store .sty m, s => sty m s
  | .rmw .asl t, s => asl t s
  | .rmw .lsr t, s => lsr t s
  | .rmw .rol t, s => rol t s
  | .rmw .ror t, s => ror t s
  | .rmw .inc (.mem m), s => inc m s
  | .rmw .inc .acc, s => .next s
  | .rmw .dec (.mem m), s => dec m s
  | .rmw .dec .acc, s => .next s
  | .jump w, s => execJmpAbs w s
  | .jumpInd w, s => execJmpInd w s
  | .call w, s => execJsr w s
  | .branch .bcc d, s => execBcc d s
  | .branch .bcs d, s => execBcs d s
  | .branch .beq d, s => execBeq d s
  | .branch .bmi d, s => execBmi d s
  | .branch .bne d, s => execBne d s
  | .branch .bpl d, s => execBpl d s
  | .branch .bvc d, s => execBvc d s
  | .branch .bvs d, s => execBvs d s
  | .implied .brk, s => execBrk s
  | .implied .php, s => execPhp s
  | .implied .clc, s => execClc s
  | .implied .plp, s => execPlp s
  | .implied .sec, s => execSec s
  | .implied .rti, s => execRti s
  | .implied .pha, s => execPha s
  | .implied .cli, s => execCli s
  | .implied .rts, s => execRts s
  | .implied .pla, s => execPla s
  | .implied .sei, s => execSei s
  | .implied .dey, s => execDey s
  | .implied .txa, s => execTxa s
  | .implied .tya, s => execTya s
  | .implied .txs, s => execTxs s
  | .implied .tay, s => execTay s
  | .implied .tax, s => execTax s
  | .implied .clv, s => execClv s
  | .implied .tsx, s => execTsx s
  | .implied .iny, s => execIny s
  | .implied .dex, s => execDex s
  | .implied .cld, s => execCld s
  | .implied .inx, s => execInx s
  | .implied .nop, s => execNop s
  | .implied .sed, s => execSed s

theorem exec_eq_run (i : Instr) (s : State) : exec i s = runForm i.form s := by
  cases i <;> rfl

/-- The same, for an instruction whose form is known. -/
theorem exec_of_form {i : Instr} {f : Form} (h : i.form = f) (s : State) : exec i s = runForm f s := by
  rw [exec_eq_run, h]

end Sys2Proof.Machine
end

