-- ==== Sys2Proof/Laws/Driver.lean ====
section
/-! SUPPORT. The state after reset is what the driver's reset leaves on `FlatRam`. -/

namespace Sys2Proof.Machine

theorem reset_eq_resetState : State.reset = resetState Config.spReset flatRam := by decide

end Sys2Proof.Machine
end

