-- ==== Sys2Proof/Laws/Exec.lean ====
section
/-! SUPPORT. What any instruction can do to the bus, said once; an operand's value by the parts of the state it depends on;
and how two answers of one `exec` are compared without unfolding the state. -/

namespace Sys2Proof.Machine

/-- Two answers of one computation are one state. -/
theorem next_unique {r : Result} {t u : State} (h : r = .next t) (hu : r = .next u) : t = u := by
  rw [hu] at h
  exact (Host.Outcome.next.inj h).symm

/-- An operand's value depends on X, Y and the bus alone. -/
theorem operandValue_congr {o : Operand} {s t : State} (hx : t.x = s.x) (hy : t.y = s.y) (hb : t.bus = s.bus) :
    operandValue o t = operandValue o s := by
  cases o <;> simp [operandValue, effAddr_congr hx hy hb, State.read, hb]

/-- BRK and RTI, whose states are costly to unfold, by their shared operations. -/
theorem exec_brk (s : State) : exec .brk s = .next ((s.past 2).interruptEntry true) := rfl

theorem exec_rti (s : State) : exec .rti s = .next s.interruptReturn := rfl

/-- Every instruction leaves the bus as a list of writes would, in order: none, one, two (JSR) or three (BRK). -/
theorem exec_bus {i : Instr} {s t : State} (h : exec i s = .next t) :
    ∃ writes : List (Word × Byte), t.bus = writes.foldl (fun b w => b.write w.1 w.2) s.bus := by
  rw [exec_eq_run] at h
  cases hf : i.form with
  | read op o => rw [hf] at h; cases op <;> (cases h; exact ⟨[], rfl⟩)
  | store op m => rw [hf] at h; cases op <;> (cases h; exact ⟨[(_, _)], rfl⟩)
  | rmw op g =>
    rw [hf] at h
    cases op <;> cases g <;> (cases h; first | exact ⟨[], rfl⟩ | exact ⟨[(_, _)], rfl⟩)
  | jump w => rw [hf] at h; cases h; exact ⟨[], rfl⟩
  | jumpInd w => rw [hf] at h; cases h; exact ⟨[], rfl⟩
  | call w => rw [hf] at h; cases h; exact ⟨[(_, _), (_, _)], rfl⟩
  | branch op d =>
    rw [hf] at h
    cases op <;> (cases h; refine ⟨[], ?_⟩; simp only [List.foldl]; split <;> rfl)
  | implied op =>
    rw [hf] at h
    by_cases hb : op = .brk
    · subst hb
      rw [next_unique h (u := (s.past 2).interruptEntry true) rfl, State.interruptEntry_bus]
      exact ⟨[(_, _), (_, _), (_, _)], rfl⟩
    by_cases hr : op = .rti
    · subst hr
      rw [next_unique h (u := s.interruptReturn) rfl]
      exact ⟨[], rfl⟩
    by_cases ha : op = .pha
    · subst ha; cases h; exact ⟨[(_, _)], rfl⟩
    by_cases hp : op = .php
    · subst hp; cases h; exact ⟨[(_, _)], rfl⟩
    refine ⟨[], ?_⟩
    cases op <;> first | exact (hb rfl).elim | exact (hr rfl).elim | exact (ha rfl).elim | exact (hp rfl).elim |
      (cases h; rfl)

/-- What a list of writes can do: it keeps the map, the tick count, the order of the bus, and every byte that no RAM store
holds. -/
theorem writes_keep (writes : List (Word × Byte)) (b : Bus) :
    let b' := writes.foldl (fun b w => b.write w.1 w.2) b
    b'.map = b.map ∧ b'.ticks = b.ticks ∧ (b.wf = true → b'.wf = true) ∧
      ∀ k : Word, b.map.backing k.toNat ≠ .ram → b'.read k = b.read k := by
  induction writes generalizing b with
  | nil => simp
  | cons w rest ih =>
    obtain ⟨h1, h2, h3, h4⟩ := ih (b.write w.1 w.2)
    refine ⟨by simpa using h1, by simpa using h2, fun h => h3 (Bus.wf_write h _ _), fun k hk => ?_⟩
    rw [List.foldl_cons, h4 k (by simpa using hk)]
    by_cases e : k = w.1
    · rw [Bus.write_dropped _ (by rw [← e]; exact hk)]
    · exact Bus.read_write_ne b _ e

end Sys2Proof.Machine
end

