-- ==== Sys2Proof/Laws/PerInstr.lean ====
section
/-! SUPPORT. A statement about the syntax of every instruction, proved one constructor at a time. -/

namespace Sys2Proof.Laws.Encoding

/-- The instruction is a form R74 gives, and its encoding has the length R71 gives its format. -/
def Statement (i : Instr) : Prop := i.wf = true ∧ (encode i).length = i.length

theorem brk : Statement (.brk) := ⟨rfl, rfl⟩
theorem oraIndx (b : Byte) : Statement (.oraIndx b) := ⟨rfl, rfl⟩
theorem oraZp (b : Byte) : Statement (.oraZp b) := ⟨rfl, rfl⟩
theorem aslZp (b : Byte) : Statement (.aslZp b) := ⟨rfl, rfl⟩
theorem php : Statement (.php) := ⟨rfl, rfl⟩
theorem oraImm (v : Byte) : Statement (.oraImm v) := ⟨rfl, rfl⟩
theorem aslAcc : Statement (.aslAcc) := ⟨rfl, rfl⟩
theorem oraAbs (w : Word) : Statement (.oraAbs w) := ⟨rfl, rfl⟩
theorem aslAbs (w : Word) : Statement (.aslAbs w) := ⟨rfl, rfl⟩
theorem bpl (d : Byte) : Statement (.bpl d) := ⟨rfl, rfl⟩
theorem oraIndy (b : Byte) : Statement (.oraIndy b) := ⟨rfl, rfl⟩
theorem oraZpx (b : Byte) : Statement (.oraZpx b) := ⟨rfl, rfl⟩
theorem aslZpx (b : Byte) : Statement (.aslZpx b) := ⟨rfl, rfl⟩
theorem clc : Statement (.clc) := ⟨rfl, rfl⟩
theorem oraAbsy (w : Word) : Statement (.oraAbsy w) := ⟨rfl, rfl⟩
theorem oraAbsx (w : Word) : Statement (.oraAbsx w) := ⟨rfl, rfl⟩
theorem aslAbsx (w : Word) : Statement (.aslAbsx w) := ⟨rfl, rfl⟩
theorem jsr (w : Word) : Statement (.jsr w) := ⟨rfl, rfl⟩
theorem andIndx (b : Byte) : Statement (.andIndx b) := ⟨rfl, rfl⟩
theorem bitZp (b : Byte) : Statement (.bitZp b) := ⟨rfl, rfl⟩
theorem andZp (b : Byte) : Statement (.andZp b) := ⟨rfl, rfl⟩
theorem rolZp (b : Byte) : Statement (.rolZp b) := ⟨rfl, rfl⟩
theorem plp : Statement (.plp) := ⟨rfl, rfl⟩
theorem andImm (v : Byte) : Statement (.andImm v) := ⟨rfl, rfl⟩
theorem rolAcc : Statement (.rolAcc) := ⟨rfl, rfl⟩
theorem bitAbs (w : Word) : Statement (.bitAbs w) := ⟨rfl, rfl⟩
theorem andAbs (w : Word) : Statement (.andAbs w) := ⟨rfl, rfl⟩
theorem rolAbs (w : Word) : Statement (.rolAbs w) := ⟨rfl, rfl⟩
theorem bmi (d : Byte) : Statement (.bmi d) := ⟨rfl, rfl⟩
theorem andIndy (b : Byte) : Statement (.andIndy b) := ⟨rfl, rfl⟩
theorem andZpx (b : Byte) : Statement (.andZpx b) := ⟨rfl, rfl⟩
theorem rolZpx (b : Byte) : Statement (.rolZpx b) := ⟨rfl, rfl⟩
theorem sec : Statement (.sec) := ⟨rfl, rfl⟩
theorem andAbsy (w : Word) : Statement (.andAbsy w) := ⟨rfl, rfl⟩
theorem andAbsx (w : Word) : Statement (.andAbsx w) := ⟨rfl, rfl⟩
theorem rolAbsx (w : Word) : Statement (.rolAbsx w) := ⟨rfl, rfl⟩
theorem rti : Statement (.rti) := ⟨rfl, rfl⟩
theorem eorIndx (b : Byte) : Statement (.eorIndx b) := ⟨rfl, rfl⟩
theorem eorZp (b : Byte) : Statement (.eorZp b) := ⟨rfl, rfl⟩
theorem lsrZp (b : Byte) : Statement (.lsrZp b) := ⟨rfl, rfl⟩
theorem pha : Statement (.pha) := ⟨rfl, rfl⟩
theorem eorImm (v : Byte) : Statement (.eorImm v) := ⟨rfl, rfl⟩
theorem lsrAcc : Statement (.lsrAcc) := ⟨rfl, rfl⟩
theorem jmpAbs (w : Word) : Statement (.jmpAbs w) := ⟨rfl, rfl⟩
theorem eorAbs (w : Word) : Statement (.eorAbs w) := ⟨rfl, rfl⟩
theorem lsrAbs (w : Word) : Statement (.lsrAbs w) := ⟨rfl, rfl⟩
theorem bvc (d : Byte) : Statement (.bvc d) := ⟨rfl, rfl⟩
theorem eorIndy (b : Byte) : Statement (.eorIndy b) := ⟨rfl, rfl⟩
theorem eorZpx (b : Byte) : Statement (.eorZpx b) := ⟨rfl, rfl⟩
theorem lsrZpx (b : Byte) : Statement (.lsrZpx b) := ⟨rfl, rfl⟩
theorem cli : Statement (.cli) := ⟨rfl, rfl⟩
theorem eorAbsy (w : Word) : Statement (.eorAbsy w) := ⟨rfl, rfl⟩
theorem eorAbsx (w : Word) : Statement (.eorAbsx w) := ⟨rfl, rfl⟩
theorem lsrAbsx (w : Word) : Statement (.lsrAbsx w) := ⟨rfl, rfl⟩
theorem rts : Statement (.rts) := ⟨rfl, rfl⟩
theorem adcIndx (b : Byte) : Statement (.adcIndx b) := ⟨rfl, rfl⟩
theorem adcZp (b : Byte) : Statement (.adcZp b) := ⟨rfl, rfl⟩
theorem rorZp (b : Byte) : Statement (.rorZp b) := ⟨rfl, rfl⟩
theorem pla : Statement (.pla) := ⟨rfl, rfl⟩
theorem adcImm (v : Byte) : Statement (.adcImm v) := ⟨rfl, rfl⟩
theorem rorAcc : Statement (.rorAcc) := ⟨rfl, rfl⟩
theorem jmpInd (w : Word) : Statement (.jmpInd w) := ⟨rfl, rfl⟩
theorem adcAbs (w : Word) : Statement (.adcAbs w) := ⟨rfl, rfl⟩
theorem rorAbs (w : Word) : Statement (.rorAbs w) := ⟨rfl, rfl⟩
theorem bvs (d : Byte) : Statement (.bvs d) := ⟨rfl, rfl⟩
theorem adcIndy (b : Byte) : Statement (.adcIndy b) := ⟨rfl, rfl⟩
theorem adcZpx (b : Byte) : Statement (.adcZpx b) := ⟨rfl, rfl⟩
theorem rorZpx (b : Byte) : Statement (.rorZpx b) := ⟨rfl, rfl⟩
theorem sei : Statement (.sei) := ⟨rfl, rfl⟩
theorem adcAbsy (w : Word) : Statement (.adcAbsy w) := ⟨rfl, rfl⟩
theorem adcAbsx (w : Word) : Statement (.adcAbsx w) := ⟨rfl, rfl⟩
theorem rorAbsx (w : Word) : Statement (.rorAbsx w) := ⟨rfl, rfl⟩
theorem staIndx (b : Byte) : Statement (.staIndx b) := ⟨rfl, rfl⟩
theorem styZp (b : Byte) : Statement (.styZp b) := ⟨rfl, rfl⟩
theorem staZp (b : Byte) : Statement (.staZp b) := ⟨rfl, rfl⟩
theorem stxZp (b : Byte) : Statement (.stxZp b) := ⟨rfl, rfl⟩
theorem dey : Statement (.dey) := ⟨rfl, rfl⟩
theorem txa : Statement (.txa) := ⟨rfl, rfl⟩
theorem styAbs (w : Word) : Statement (.styAbs w) := ⟨rfl, rfl⟩
theorem staAbs (w : Word) : Statement (.staAbs w) := ⟨rfl, rfl⟩
theorem stxAbs (w : Word) : Statement (.stxAbs w) := ⟨rfl, rfl⟩
theorem bcc (d : Byte) : Statement (.bcc d) := ⟨rfl, rfl⟩
theorem staIndy (b : Byte) : Statement (.staIndy b) := ⟨rfl, rfl⟩
theorem styZpx (b : Byte) : Statement (.styZpx b) := ⟨rfl, rfl⟩
theorem staZpx (b : Byte) : Statement (.staZpx b) := ⟨rfl, rfl⟩
theorem stxZpy (b : Byte) : Statement (.stxZpy b) := ⟨rfl, rfl⟩
theorem tya : Statement (.tya) := ⟨rfl, rfl⟩
theorem staAbsy (w : Word) : Statement (.staAbsy w) := ⟨rfl, rfl⟩
theorem txs : Statement (.txs) := ⟨rfl, rfl⟩
theorem staAbsx (w : Word) : Statement (.staAbsx w) := ⟨rfl, rfl⟩
theorem ldyImm (v : Byte) : Statement (.ldyImm v) := ⟨rfl, rfl⟩
theorem ldaIndx (b : Byte) : Statement (.ldaIndx b) := ⟨rfl, rfl⟩
theorem ldxImm (v : Byte) : Statement (.ldxImm v) := ⟨rfl, rfl⟩
theorem ldyZp (b : Byte) : Statement (.ldyZp b) := ⟨rfl, rfl⟩
theorem ldaZp (b : Byte) : Statement (.ldaZp b) := ⟨rfl, rfl⟩
theorem ldxZp (b : Byte) : Statement (.ldxZp b) := ⟨rfl, rfl⟩
theorem tay : Statement (.tay) := ⟨rfl, rfl⟩
theorem ldaImm (v : Byte) : Statement (.ldaImm v) := ⟨rfl, rfl⟩
theorem tax : Statement (.tax) := ⟨rfl, rfl⟩
theorem ldyAbs (w : Word) : Statement (.ldyAbs w) := ⟨rfl, rfl⟩
theorem ldaAbs (w : Word) : Statement (.ldaAbs w) := ⟨rfl, rfl⟩
theorem ldxAbs (w : Word) : Statement (.ldxAbs w) := ⟨rfl, rfl⟩
theorem bcs (d : Byte) : Statement (.bcs d) := ⟨rfl, rfl⟩
theorem ldaIndy (b : Byte) : Statement (.ldaIndy b) := ⟨rfl, rfl⟩
theorem ldyZpx (b : Byte) : Statement (.ldyZpx b) := ⟨rfl, rfl⟩
theorem ldaZpx (b : Byte) : Statement (.ldaZpx b) := ⟨rfl, rfl⟩
theorem ldxZpy (b : Byte) : Statement (.ldxZpy b) := ⟨rfl, rfl⟩
theorem clv : Statement (.clv) := ⟨rfl, rfl⟩
theorem ldaAbsy (w : Word) : Statement (.ldaAbsy w) := ⟨rfl, rfl⟩
theorem tsx : Statement (.tsx) := ⟨rfl, rfl⟩
theorem ldyAbsx (w : Word) : Statement (.ldyAbsx w) := ⟨rfl, rfl⟩
theorem ldaAbsx (w : Word) : Statement (.ldaAbsx w) := ⟨rfl, rfl⟩
theorem ldxAbsy (w : Word) : Statement (.ldxAbsy w) := ⟨rfl, rfl⟩
theorem cpyImm (v : Byte) : Statement (.cpyImm v) := ⟨rfl, rfl⟩
theorem cmpIndx (b : Byte) : Statement (.cmpIndx b) := ⟨rfl, rfl⟩
theorem cpyZp (b : Byte) : Statement (.cpyZp b) := ⟨rfl, rfl⟩
theorem cmpZp (b : Byte) : Statement (.cmpZp b) := ⟨rfl, rfl⟩
theorem decZp (b : Byte) : Statement (.decZp b) := ⟨rfl, rfl⟩
theorem iny : Statement (.iny) := ⟨rfl, rfl⟩
theorem cmpImm (v : Byte) : Statement (.cmpImm v) := ⟨rfl, rfl⟩
theorem dex : Statement (.dex) := ⟨rfl, rfl⟩
theorem cpyAbs (w : Word) : Statement (.cpyAbs w) := ⟨rfl, rfl⟩
theorem cmpAbs (w : Word) : Statement (.cmpAbs w) := ⟨rfl, rfl⟩
theorem decAbs (w : Word) : Statement (.decAbs w) := ⟨rfl, rfl⟩
theorem bne (d : Byte) : Statement (.bne d) := ⟨rfl, rfl⟩
theorem cmpIndy (b : Byte) : Statement (.cmpIndy b) := ⟨rfl, rfl⟩
theorem cmpZpx (b : Byte) : Statement (.cmpZpx b) := ⟨rfl, rfl⟩
theorem decZpx (b : Byte) : Statement (.decZpx b) := ⟨rfl, rfl⟩
theorem cld : Statement (.cld) := ⟨rfl, rfl⟩
theorem cmpAbsy (w : Word) : Statement (.cmpAbsy w) := ⟨rfl, rfl⟩
theorem cmpAbsx (w : Word) : Statement (.cmpAbsx w) := ⟨rfl, rfl⟩
theorem decAbsx (w : Word) : Statement (.decAbsx w) := ⟨rfl, rfl⟩
theorem cpxImm (v : Byte) : Statement (.cpxImm v) := ⟨rfl, rfl⟩
theorem sbcIndx (b : Byte) : Statement (.sbcIndx b) := ⟨rfl, rfl⟩
theorem cpxZp (b : Byte) : Statement (.cpxZp b) := ⟨rfl, rfl⟩
theorem sbcZp (b : Byte) : Statement (.sbcZp b) := ⟨rfl, rfl⟩
theorem incZp (b : Byte) : Statement (.incZp b) := ⟨rfl, rfl⟩
theorem inx : Statement (.inx) := ⟨rfl, rfl⟩
theorem sbcImm (v : Byte) : Statement (.sbcImm v) := ⟨rfl, rfl⟩
theorem nop : Statement (.nop) := ⟨rfl, rfl⟩
theorem cpxAbs (w : Word) : Statement (.cpxAbs w) := ⟨rfl, rfl⟩
theorem sbcAbs (w : Word) : Statement (.sbcAbs w) := ⟨rfl, rfl⟩
theorem incAbs (w : Word) : Statement (.incAbs w) := ⟨rfl, rfl⟩
theorem beq (d : Byte) : Statement (.beq d) := ⟨rfl, rfl⟩
theorem sbcIndy (b : Byte) : Statement (.sbcIndy b) := ⟨rfl, rfl⟩
theorem sbcZpx (b : Byte) : Statement (.sbcZpx b) := ⟨rfl, rfl⟩
theorem incZpx (b : Byte) : Statement (.incZpx b) := ⟨rfl, rfl⟩
theorem sed : Statement (.sed) := ⟨rfl, rfl⟩
theorem sbcAbsy (w : Word) : Statement (.sbcAbsy w) := ⟨rfl, rfl⟩
theorem sbcAbsx (w : Word) : Statement (.sbcAbsx w) := ⟨rfl, rfl⟩
theorem incAbsx (w : Word) : Statement (.incAbsx w) := ⟨rfl, rfl⟩

end Sys2Proof.Laws.Encoding
end

