-- ==== Sys2Proof/Laws/Status.lean ====
section
/-! SUPPORT. The status byte and the seven flags (R20, R21). -/

namespace Sys2Proof.Machine

@[simp] theorem Status.ofByte_toByte (p : Status) : Status.ofByte p.toByte = p := by
  obtain ⟨c, z, i, d, b, v, n⟩ := p
  revert c z i d b v n
  decide

/-- A loaded byte reads back with the reserved bit set. -/
theorem Status.toByte_ofByte (w : Byte) : (Status.ofByte w).toByte = w ||| 0x20 := by
  revert w
  decide

end Sys2Proof.Machine
end

