-- ==== Sys2Proof/Laws/Step.lean ====
section
/-! SUPPORT. What a step does, said once: it faults on an unassigned byte, and else it runs the decoded instruction and
ticks the bus. -/

namespace Sys2Proof.Machine

@[simp] theorem withTick_next (t : State) : withTick (.next t) = .next { t with bus := t.bus.tick } := rfl

theorem withTick_eq_next {r : Result} {t : State} (h : withTick r = .next t) :
    ∃ u, r = .next u ∧ t = { u with bus := u.bus.tick } := by
  cases r with
  | next u => cases h; exact ⟨u, rfl, rfl⟩
  | fault f => cases h
  | refused why => cases h

theorem step_of_decode {s : State} {i : Instr} {rest : List Byte} (h : decode s.stream = .ok (i, rest)) :
    step s = withTick (exec i s) := by
  simp [step, h]

theorem step_of_unassigned {s : State} (h : opLookup (s.read s.pc) = none) :
    step s = .fault (.dispatch (s.read s.pc)) := by
  simp [step, State.stream, decode_unassigned h]

/-- If a step answers a next state, an instruction was decoded and its meaning answered that state but for the tick. -/
theorem step_next {s t : State} (h : step s = .next t) :
    ∃ i rest u, decode s.stream = .ok (i, rest) ∧ exec i s = .next u ∧ t = { u with bus := u.bus.tick } := by
  unfold step at h
  split at h
  · cases h
  · rename_i i rest hd
    obtain ⟨u, hu, ht⟩ := withTick_eq_next h
    exact ⟨i, rest, u, hd, hu, ht⟩

end Sys2Proof.Machine
end

