-- ==== Sys2Proof/Tests/Slice0.lean ====
section
/-! SUPPORT. The model's own tests. Every expected value is the spec's: the vectors of 95_test_vectors.md under their ids
(`test_ad5_…` is AD5), the source's properties S1 to S10, and the encodings of 30_encoding.md rule R74. -/

namespace Sys2Proof.Tests

open Machine

/-- A state on `FlatRam` with these registers, this status byte and these bytes in memory. -/
def start (a x y sp : Byte) (pc : Word) (p : Byte) (mem : List (Word × Byte)) : State :=
  { a := a, x := x, y := y, sp := sp, pc := pc, p := Status.ofByte p,
    bus := { flatRam with cells := mem.foldl (fun m c => Memory.set m c.1.toNat c.2) [] } }

/-- A, X, Y, SP, PC, the status byte, and the bytes at some addresses. -/
structure Seen where
  a : Byte
  x : Byte
  y : Byte
  sp : Byte
  pc : Word
  p : Byte
  bytes : List Byte
  deriving DecidableEq

def seenIn (addrs : List Word) (t : State) : Seen :=
  ⟨t.a, t.x, t.y, t.sp, t.pc, t.p.toByte, addrs.map t.read⟩

def nextOf (r : Result) : Option State :=
  match r with
  | .next t => some t
  | .fault _ | .refused _ => none

def faultOf (r : Result) : Option Fault :=
  match r with
  | .fault f => some f
  | .next _ | .refused _ => none

def seen (addrs : List Word) (r : Result) : Option Seen :=
  (nextOf r).map (seenIn addrs)

def decodedAll (ws : List (Nat × Nat)) : List (Option Instr) := ws.map fun p => decodeTableWord p.1 p.2

/-! ## Encodings, from the listing by mnemonic of R74 -/

theorem test_decode_adc :
    decodedAll [(16, 0x7F69), (16, 0x1065), (16, 0x2075), (24, 0x12346D), (24, 0xBEEF7D), (24, 0xC0DE79), (16, 0x8661), (16, 0xFE71)] =
      [some (.adcImm 0x7F),
       some (.adcZp 0x10),
       some (.adcZpx 0x20),
       some (.adcAbs 0x1234),
       some (.adcAbsx 0xBEEF),
       some (.adcAbsy 0xC0DE),
       some (.adcIndx 0x86),
       some (.adcIndy 0xFE)] := by
  decide

theorem test_decode_and :
    decodedAll [(16, 0x7F29), (16, 0x1025), (16, 0x2035), (24, 0x12342D), (24, 0xBEEF3D), (24, 0xC0DE39), (16, 0x8621), (16, 0xFE31)] =
      [some (.andImm 0x7F),
       some (.andZp 0x10),
       some (.andZpx 0x20),
       some (.andAbs 0x1234),
       some (.andAbsx 0xBEEF),
       some (.andAbsy 0xC0DE),
       some (.andIndx 0x86),
       some (.andIndy 0xFE)] := by
  decide

theorem test_decode_asl :
    decodedAll [(16, 0x1006), (16, 0x2016), (24, 0x12340E), (24, 0xBEEF1E), (8, 0xA)] =
      [some (.aslZp 0x10),
       some (.aslZpx 0x20),
       some (.aslAbs 0x1234),
       some (.aslAbsx 0xBEEF),
       some .aslAcc] := by
  decide

theorem test_decode_bit :
    decodedAll [(16, 0x1024), (24, 0x12342C)] =
      [some (.bitZp 0x10),
       some (.bitAbs 0x1234)] := by
  decide

theorem test_decode_cmp :
    decodedAll [(16, 0x7FC9), (16, 0x10C5), (16, 0x20D5), (24, 0x1234CD), (24, 0xBEEFDD), (24, 0xC0DED9), (16, 0x86C1), (16, 0xFED1)] =
      [some (.cmpImm 0x7F),
       some (.cmpZp 0x10),
       some (.cmpZpx 0x20),
       some (.cmpAbs 0x1234),
       some (.cmpAbsx 0xBEEF),
       some (.cmpAbsy 0xC0DE),
       some (.cmpIndx 0x86),
       some (.cmpIndy 0xFE)] := by
  decide

theorem test_decode_cpx :
    decodedAll [(16, 0x7FE0), (16, 0x10E4), (24, 0x1234EC)] =
      [some (.cpxImm 0x7F),
       some (.cpxZp 0x10),
       some (.cpxAbs 0x1234)] := by
  decide

theorem test_decode_cpy :
    decodedAll [(16, 0x7FC0), (16, 0x10C4), (24, 0x1234CC)] =
      [some (.cpyImm 0x7F),
       some (.cpyZp 0x10),
       some (.cpyAbs 0x1234)] := by
  decide

theorem test_decode_dec :
    decodedAll [(16, 0x10C6), (16, 0x20D6), (24, 0x1234CE), (24, 0xBEEFDE)] =
      [some (.decZp 0x10),
       some (.decZpx 0x20),
       some (.decAbs 0x1234),
       some (.decAbsx 0xBEEF)] := by
  decide

theorem test_decode_eor :
    decodedAll [(16, 0x7F49), (16, 0x1045), (16, 0x2055), (24, 0x12344D), (24, 0xBEEF5D), (24, 0xC0DE59), (16, 0x8641), (16, 0xFE51)] =
      [some (.eorImm 0x7F),
       some (.eorZp 0x10),
       some (.eorZpx 0x20),
       some (.eorAbs 0x1234),
       some (.eorAbsx 0xBEEF),
       some (.eorAbsy 0xC0DE),
       some (.eorIndx 0x86),
       some (.eorIndy 0xFE)] := by
  decide

theorem test_decode_inc :
    decodedAll [(16, 0x10E6), (16, 0x20F6), (24, 0x1234EE), (24, 0xBEEFFE)] =
      [some (.incZp 0x10),
       some (.incZpx 0x20),
       some (.incAbs 0x1234),
       some (.incAbsx 0xBEEF)] := by
  decide

theorem test_decode_jmp :
    decodedAll [(24, 0x12344C), (24, 0x30FF6C)] =
      [some (.jmpAbs 0x1234),
       some (.jmpInd 0x30FF)] := by
  decide

theorem test_decode_jsr :
    decodedAll [(24, 0x123420)] =
      [some (.jsr 0x1234)] := by
  decide

theorem test_decode_lda :
    decodedAll [(16, 0x7FA9), (16, 0x10A5), (16, 0x20B5), (24, 0x1234AD), (24, 0xBEEFBD), (24, 0xC0DEB9), (16, 0x86A1), (16, 0xFEB1)] =
      [some (.ldaImm 0x7F),
       some (.ldaZp 0x10),
       some (.ldaZpx 0x20),
       some (.ldaAbs 0x1234),
       some (.ldaAbsx 0xBEEF),
       some (.ldaAbsy 0xC0DE),
       some (.ldaIndx 0x86),
       some (.ldaIndy 0xFE)] := by
  decide

theorem test_decode_ldx :
    decodedAll [(16, 0x7FA2), (16, 0x10A6), (16, 0x30B6), (24, 0x1234AE), (24, 0xC0DEBE)] =
      [some (.ldxImm 0x7F),
       some (.ldxZp 0x10),
       some (.ldxZpy 0x30),
       some (.ldxAbs 0x1234),
       some (.ldxAbsy 0xC0DE)] := by
  decide

theorem test_decode_ldy :
    decodedAll [(16, 0x7FA0), (16, 0x10A4), (16, 0x20B4), (24, 0x1234AC), (24, 0xBEEFBC)] =
      [some (.ldyImm 0x7F),
       some (.ldyZp 0x10),
       some (.ldyZpx 0x20),
       some (.ldyAbs 0x1234),
       some (.ldyAbsx 0xBEEF)] := by
  decide

theorem test_decode_lsr :
    decodedAll [(16, 0x1046), (16, 0x2056), (24, 0x12344E), (24, 0xBEEF5E), (8, 0x4A)] =
      [some (.lsrZp 0x10),
       some (.lsrZpx 0x20),
       some (.lsrAbs 0x1234),
       some (.lsrAbsx 0xBEEF),
       some .lsrAcc] := by
  decide

theorem test_decode_ora :
    decodedAll [(16, 0x7F09), (16, 0x1005), (16, 0x2015), (24, 0x12340D), (24, 0xBEEF1D), (24, 0xC0DE19), (16, 0x8601), (16, 0xFE11)] =
      [some (.oraImm 0x7F),
       some (.oraZp 0x10),
       some (.oraZpx 0x20),
       some (.oraAbs 0x1234),
       some (.oraAbsx 0xBEEF),
       some (.oraAbsy 0xC0DE),
       some (.oraIndx 0x86),
       some (.oraIndy 0xFE)] := by
  decide

theorem test_decode_rol :
    decodedAll [(16, 0x1026), (16, 0x2036), (24, 0x12342E), (24, 0xBEEF3E), (8, 0x2A)] =
      [some (.rolZp 0x10),
       some (.rolZpx 0x20),
       some (.rolAbs 0x1234),
       some (.rolAbsx 0xBEEF),
       some .rolAcc] := by
  decide

theorem test_decode_ror :
    decodedAll [(16, 0x1066), (16, 0x2076), (24, 0x12346E), (24, 0xBEEF7E), (8, 0x6A)] =
      [some (.rorZp 0x10),
       some (.rorZpx 0x20),
       some (.rorAbs 0x1234),
       some (.rorAbsx 0xBEEF),
       some .rorAcc] := by
  decide

theorem test_decode_sbc :
    decodedAll [(16, 0x7FE9), (16, 0x10E5), (16, 0x20F5), (24, 0x1234ED), (24, 0xBEEFFD), (24, 0xC0DEF9), (16, 0x86E1), (16, 0xFEF1)] =
      [some (.sbcImm 0x7F),
       some (.sbcZp 0x10),
       some (.sbcZpx 0x20),
       some (.sbcAbs 0x1234),
       some (.sbcAbsx 0xBEEF),
       some (.sbcAbsy 0xC0DE),
       some (.sbcIndx 0x86),
       some (.sbcIndy 0xFE)] := by
  decide

theorem test_decode_sta :
    decodedAll [(16, 0x1085), (16, 0x2095), (24, 0x12348D), (24, 0xBEEF9D), (24, 0xC0DE99), (16, 0x8681), (16, 0xFE91)] =
      [some (.staZp 0x10),
       some (.staZpx 0x20),
       some (.staAbs 0x1234),
       some (.staAbsx 0xBEEF),
       some (.staAbsy 0xC0DE),
       some (.staIndx 0x86),
       some (.staIndy 0xFE)] := by
  decide

theorem test_decode_stx :
    decodedAll [(16, 0x1086), (16, 0x3096), (24, 0x12348E)] =
      [some (.stxZp 0x10),
       some (.stxZpy 0x30),
       some (.stxAbs 0x1234)] := by
  decide

theorem test_decode_sty :
    decodedAll [(16, 0x1084), (16, 0x2094), (24, 0x12348C)] =
      [some (.styZp 0x10),
       some (.styZpx 0x20),
       some (.styAbs 0x1234)] := by
  decide

theorem test_decode_branches :
    decodedAll [(16, 0xEE10), (16, 0xEE30), (16, 0xEE50), (16, 0xEE70), (16, 0xEE90), (16, 0xEEB0), (16, 0xEED0), (16, 0xEEF0)] =
      [some (.bpl 0xEE),
       some (.bmi 0xEE),
       some (.bvc 0xEE),
       some (.bvs 0xEE),
       some (.bcc 0xEE),
       some (.bcs 0xEE),
       some (.bne 0xEE),
       some (.beq 0xEE)] := by
  decide

theorem test_decode_implied_low :
    decodedAll [(8, 0x0), (8, 0x8), (8, 0x18), (8, 0x28), (8, 0x38), (8, 0x40), (8, 0x48), (8, 0x58), (8, 0x60), (8, 0x68), (8, 0x78), (8, 0x88), (8, 0x8A)] =
      [some .brk,
       some .php,
       some .clc,
       some .plp,
       some .sec,
       some .rti,
       some .pha,
       some .cli,
       some .rts,
       some .pla,
       some .sei,
       some .dey,
       some .txa] := by
  decide

theorem test_decode_implied_high :
    decodedAll [(8, 0x98), (8, 0x9A), (8, 0xA8), (8, 0xAA), (8, 0xB8), (8, 0xBA), (8, 0xC8), (8, 0xCA), (8, 0xD8), (8, 0xE8), (8, 0xEA), (8, 0xF8)] =
      [some .tya,
       some .txs,
       some .tay,
       some .tax,
       some .clv,
       some .tsx,
       some .iny,
       some .dex,
       some .cld,
       some .inx,
       some .nop,
       some .sed] := by
  decide

/-! ## One word of each family, bit by bit -/

theorem test_bits_lda : decodeTableWord 16 0b0111111110101001 = some (.ldaImm 0x7F) := by
  decide

theorem test_bits_stx : decodeTableWord 16 0b0011000010010110 = some (.stxZpy 0x30) := by
  decide

theorem test_bits_pha : decodeTableWord 8 0b01001000 = some .pha := by
  decide

theorem test_bits_ror : decodeTableWord 16 0b0010000001110110 = some (.rorZpx 0x20) := by
  decide

theorem test_bits_eor : decodeTableWord 24 0b110000001101111001011001 = some (.eorAbsy 0xC0DE) := by
  decide

theorem test_bits_sbc : decodeTableWord 16 0b1111111011110001 = some (.sbcIndy 0xFE) := by
  decide

theorem test_bits_inc : decodeTableWord 24 0b101111101110111111111110 = some (.incAbsx 0xBEEF) := by
  decide

theorem test_bits_jmp : decodeTableWord 24 0b001100001111111101101100 = some (.jmpInd 0x30FF) := by
  decide

theorem test_bits_bne : decodeTableWord 16 0b1110111011010000 = some (.bne 0xEE) := by
  decide

theorem test_bits_rti : decodeTableWord 8 0b01000000 = some .rti := by
  decide

/-! ## Operand forms the table does not have -/

theorem test_wf_refuses_bit_immediate : (Form.read .bit (.imm 0x01)).wf = false := by decide
theorem test_wf_refuses_ldx_zero_page_x : (Form.read .ldx (.mem (.zpx 0x10))).wf = false := by decide
theorem test_wf_refuses_cpx_absolute_x : (Form.read .cpx (.mem (.absx 0x1234))).wf = false := by decide
theorem test_wf_refuses_stx_absolute_y : (Form.store .stx (.absy 0x1234)).wf = false := by decide
theorem test_wf_refuses_inc_accumulator : (Form.rmw .inc .acc).wf = false := by decide
theorem test_wf_refuses_asl_absolute_y : (Form.rmw .asl (.mem (.absy 0x1234))).wf = false := by decide
theorem test_wf_accepts_sta_indirect_y : (Form.store .sta (.indy 0x40)).wf = true := by decide

/-! ## Steps: the vectors of 95_test_vectors.md -/

theorem test_am1_lda_imm :
    seen [] (step (start 0x00 0x00 0x00 0xFD 0x0200 0x24 [(0x0200, 0xA9), (0x0201, 0x42)])) =
      some ⟨0x42, 0x00, 0x00, 0xFD, 0x0202, 0x24, []⟩ := by decide

theorem test_am3_lda_zpx :
    seen [] (step (start 0x00 0x02 0x00 0xFD 0x0200 0x24 [(0x0001, 0x77), (0x0101, 0x55), (0x0200, 0xB5), (0x0201, 0xFF)])) =
      some ⟨0x77, 0x02, 0x00, 0xFD, 0x0202, 0x24, []⟩ := by decide

theorem test_am4_ldx_zpy :
    seen [] (step (start 0x00 0x00 0x20 0xFD 0x0200 0x24 [(0x0010, 0x00), (0x0110, 0x66), (0x0200, 0xB6), (0x0201, 0xF0)])) =
      some ⟨0x00, 0x00, 0x20, 0xFD, 0x0202, 0x26, []⟩ := by decide

theorem test_ls3_ldy_imm :
    seen [] (step (start 0x00 0x00 0x00 0xFD 0x0200 0xA6 [(0x0200, 0xA0), (0x0201, 0x7F)])) =
      some ⟨0x00, 0x00, 0x7F, 0xFD, 0x0202, 0x24, []⟩ := by decide

theorem test_am6_lda_absx :
    seen [] (step (start 0x00 0x02 0x00 0xFD 0x0200 0x24 [(0x0001, 0x11), (0x0200, 0xBD), (0x0201, 0xFF), (0x0202, 0xFF)])) =
      some ⟨0x11, 0x02, 0x00, 0xFD, 0x0203, 0x24, []⟩ := by decide

theorem test_am9_lda_indx :
    seen [] (step (start 0x00 0x01 0x00 0xFD 0x0200 0x24 [(0x0000, 0x12), (0x00FF, 0x34), (0x0100, 0x99), (0x1234, 0x44), (0x9934, 0xEE), (0x0200, 0xA1), (0x0201, 0xFE)])) =
      some ⟨0x44, 0x01, 0x00, 0xFD, 0x0202, 0x24, []⟩ := by decide

theorem test_am11_lda_indy :
    seen [] (step (start 0x00 0x00 0x02 0xFD 0x0200 0x24 [(0x0000, 0xFF), (0x0001, 0x5A), (0x00FF, 0xFF), (0x0200, 0xB1), (0x0201, 0xFF)])) =
      some ⟨0x5A, 0x00, 0x02, 0xFD, 0x0202, 0x24, []⟩ := by decide

theorem test_am12_sta_indy :
    seen [0x1310] (step (start 0xAB 0x00 0x20 0xFD 0x0200 0x24 [(0x0040, 0xF0), (0x0041, 0x12), (0x0200, 0x91), (0x0201, 0x40)])) =
      some ⟨0xAB, 0x00, 0x20, 0xFD, 0x0202, 0x24, [0xAB]⟩ := by decide

theorem test_am14_lda_zp :
    seen [] (step (start 0x00 0x00 0x00 0xFD 0xFFFF 0x24 [(0x0000, 0x10), (0x0010, 0x7E), (0xFFFF, 0xA5), (0x0000, 0x10)])) =
      some ⟨0x7E, 0x00, 0x00, 0xFD, 0x0001, 0x24, []⟩ := by decide

theorem test_am15_sta_indx :
    seen [0x0300] (step (start 0x5C 0xFF 0x00 0xFD 0x0200 0x24 [(0x007F, 0x00), (0x0080, 0x03), (0x0200, 0x81), (0x0201, 0x80)])) =
      some ⟨0x5C, 0xFF, 0x00, 0xFD, 0x0202, 0x24, [0x5C]⟩ := by decide

theorem test_am7_lda_absy :
    seen [] (step (start 0x00 0x00 0x10 0xFD 0x0200 0x24 [(0x1300, 0x22), (0x0200, 0xB9), (0x0201, 0xF0), (0x0202, 0x12)])) =
      some ⟨0x22, 0x00, 0x10, 0xFD, 0x0203, 0x24, []⟩ := by decide

theorem test_am8_lda_indx :
    seen [] (step (start 0x00 0x04 0x00 0xFD 0x0200 0x24 [(0x0024, 0x74), (0x0025, 0x20), (0x2074, 0x33), (0x0200, 0xA1), (0x0201, 0x20)])) =
      some ⟨0x33, 0x04, 0x00, 0xFD, 0x0202, 0x24, []⟩ := by decide

theorem test_ls5_stx_abs :
    seen [0x0300] (step (start 0x00 0x80 0x00 0xFD 0x0200 0x24 [(0x0200, 0x8E), (0x0201, 0x00), (0x0202, 0x03)])) =
      some ⟨0x00, 0x80, 0x00, 0xFD, 0x0203, 0x24, [0x80]⟩ := by decide

theorem test_ls6_sty_zpx :
    seen [0x0000] (step (start 0x00 0x01 0x9A 0xFD 0x0200 0x24 [(0x0200, 0x94), (0x0201, 0xFF)])) =
      some ⟨0x00, 0x01, 0x9A, 0xFD, 0x0202, 0x24, [0x9A]⟩ := by decide

theorem test_am13_sta_absx :
    seen [0x30FF] (step (start 0x01 0xFF 0x00 0xFD 0x0200 0x24 [(0x0200, 0x9D), (0x0201, 0x00), (0x0202, 0x30)])) =
      some ⟨0x01, 0xFF, 0x00, 0xFD, 0x0203, 0x24, [0x01]⟩ := by decide

theorem test_am10_lda_indy :
    seen [] (step (start 0x00 0x00 0x10 0xFD 0x0200 0x24 [(0x0086, 0x28), (0x0087, 0x40), (0x4038, 0x55), (0x0200, 0xB1), (0x0201, 0x86)])) =
      some ⟨0x55, 0x00, 0x10, 0xFD, 0x0202, 0x24, []⟩ := by decide

theorem test_ad5_adc_imm :
    seen [] (step (start 0x80 0x00 0x00 0xFD 0x0200 0x24 [(0x0200, 0x69), (0x0201, 0x80)])) =
      some ⟨0x00, 0x00, 0x00, 0xFD, 0x0202, 0x67, []⟩ := by decide

theorem test_ad10_adc_absx :
    seen [] (step (start 0xC1 0x05 0x00 0xFD 0x0200 0x25 [(0x4005, 0x3F), (0x0200, 0x7D), (0x0201, 0x00), (0x0202, 0x40)])) =
      some ⟨0x01, 0x05, 0x00, 0xFD, 0x0203, 0x25, []⟩ := by decide

theorem test_sb2_sbc_imm :
    seen [] (step (start 0x50 0x00 0x00 0xFD 0x0200 0x25 [(0x0200, 0xE9), (0x0201, 0xB0)])) =
      some ⟨0xA0, 0x00, 0x00, 0xFD, 0x0202, 0xE4, []⟩ := by decide

theorem test_sb5_sbc_imm :
    seen [] (step (start 0x05 0x00 0x00 0xFD 0x0200 0x24 [(0x0200, 0xE9), (0x0201, 0x05)])) =
      some ⟨0xFF, 0x00, 0x00, 0xFD, 0x0202, 0xA4, []⟩ := by decide

theorem test_cp1_cmp_imm :
    seen [] (step (start 0x10 0x00 0x00 0xFD 0x0200 0x64 [(0x0200, 0xC9), (0x0201, 0x20)])) =
      some ⟨0x10, 0x00, 0x00, 0xFD, 0x0202, 0xE4, []⟩ := by decide

theorem test_cp5_cmp_imm :
    seen [] (step (start 0xFF 0x00 0x00 0xFD 0x0200 0x64 [(0x0200, 0xC9), (0x0201, 0x00)])) =
      some ⟨0xFF, 0x00, 0x00, 0xFD, 0x0202, 0xE5, []⟩ := by decide

theorem test_cp6_cpx_imm :
    seen [] (step (start 0x55 0x10 0x00 0xFD 0x0200 0x24 [(0x0200, 0xE0), (0x0201, 0x10)])) =
      some ⟨0x55, 0x10, 0x00, 0xFD, 0x0202, 0x27, []⟩ := by decide

theorem test_cp7_cpy_zp :
    seen [] (step (start 0x00 0x00 0x00 0xFD 0x0200 0x25 [(0x0030, 0x01), (0x0200, 0xC4), (0x0201, 0x30)])) =
      some ⟨0x00, 0x00, 0x00, 0xFD, 0x0202, 0xA4, []⟩ := by decide

theorem test_ls2_ldx_imm :
    seen [] (step (start 0x00 0x00 0x00 0xFD 0x0200 0x24 [(0x0200, 0xA2), (0x0201, 0x80)])) =
      some ⟨0x00, 0x80, 0x00, 0xFD, 0x0202, 0xA4, []⟩ := by decide

theorem test_ls7_tax_imp :
    seen [] (step (start 0x80 0x00 0x00 0xFD 0x0200 0x24 [(0x0200, 0xAA)])) =
      some ⟨0x80, 0x80, 0x00, 0xFD, 0x0201, 0xA4, []⟩ := by decide

theorem test_ls8_tay_imp :
    seen [] (step (start 0x00 0x00 0x33 0xFD 0x0200 0x24 [(0x0200, 0xA8)])) =
      some ⟨0x00, 0x00, 0x00, 0xFD, 0x0201, 0x26, []⟩ := by decide

theorem test_ls9_txa_imp :
    seen [] (step (start 0xFF 0x01 0x00 0xFD 0x0200 0xA4 [(0x0200, 0x8A)])) =
      some ⟨0x01, 0x01, 0x00, 0xFD, 0x0201, 0x24, []⟩ := by decide

theorem test_ls10_tya_imp :
    seen [] (step (start 0x00 0x00 0xC0 0xFD 0x0200 0x24 [(0x0200, 0x98)])) =
      some ⟨0xC0, 0x00, 0xC0, 0xFD, 0x0201, 0xA4, []⟩ := by decide

theorem test_ls12_tsx_imp :
    seen [] (step (start 0x00 0x11 0x00 0x00 0x0200 0x24 [(0x0200, 0xBA)])) =
      some ⟨0x00, 0x00, 0x00, 0x00, 0x0201, 0x26, []⟩ := by decide

theorem test_ls13_txs_imp :
    seen [] (step (start 0x00 0x00 0x00 0xFD 0x0200 0xA4 [(0x0200, 0x9A)])) =
      some ⟨0x00, 0x00, 0x00, 0x00, 0x0201, 0xA4, []⟩ := by decide

theorem test_sk2_pha_imp :
    seen [0x0100] (step (start 0x01 0x00 0x00 0x00 0x0200 0x24 [(0x0200, 0x48)])) =
      some ⟨0x01, 0x00, 0x00, 0xFF, 0x0201, 0x24, [0x01]⟩ := by decide

theorem test_sk4_pla_imp :
    seen [] (step (start 0x44 0x00 0x00 0xFF 0x0200 0x24 [(0x0100, 0x00), (0x0200, 0x68)])) =
      some ⟨0x00, 0x00, 0x00, 0x00, 0x0201, 0x26, []⟩ := by decide

theorem test_sk5_php_imp :
    seen [0x01FD] (step (start 0x00 0x00 0x00 0xFD 0x0200 0x24 [(0x0200, 0x08)])) =
      some ⟨0x00, 0x00, 0x00, 0xFC, 0x0201, 0x24, [0x24]⟩ := by decide

theorem test_sk6_php_imp :
    seen [0x01FD] (step (start 0x00 0x00 0x00 0xFD 0x0200 0xFF [(0x0200, 0x08)])) =
      some ⟨0x00, 0x00, 0x00, 0xFC, 0x0201, 0xFF, [0xFF]⟩ := by decide

theorem test_sk9_plp_imp :
    seen [] (step (start 0x00 0x00 0x00 0xFC 0x0200 0x24 [(0x01FD, 0xC3), (0x0200, 0x28)])) =
      some ⟨0x00, 0x00, 0x00, 0xFD, 0x0201, 0xE3, []⟩ := by decide

theorem test_sk7_plp_imp :
    seen [] (step (start 0x00 0x00 0x00 0xFC 0x0200 0x24 [(0x01FD, 0xFF), (0x0200, 0x28)])) =
      some ⟨0x00, 0x00, 0x00, 0xFD, 0x0201, 0xFF, []⟩ := by decide

theorem test_sh2_asl_acc :
    seen [] (step (start 0x41 0x00 0x00 0xFD 0x0200 0x25 [(0x0200, 0x0A)])) =
      some ⟨0x82, 0x00, 0x00, 0xFD, 0x0201, 0xA4, []⟩ := by decide

theorem test_sh9_asl_zp :
    seen [0x0010] (step (start 0x00 0x00 0x00 0xFD 0x0200 0x24 [(0x0010, 0xC0), (0x0200, 0x06), (0x0201, 0x10)])) =
      some ⟨0x00, 0x00, 0x00, 0xFD, 0x0202, 0xA5, [0x80]⟩ := by decide

theorem test_sh10_lsr_absx :
    seen [0x2001] (step (start 0x00 0x01 0x00 0xFD 0x0200 0x24 [(0x2001, 0x03), (0x0200, 0x5E), (0x0201, 0x00), (0x0202, 0x20)])) =
      some ⟨0x00, 0x01, 0x00, 0xFD, 0x0203, 0x25, [0x01]⟩ := by decide

theorem test_sh4_lsr_acc :
    seen [] (step (start 0xFE 0x00 0x00 0xFD 0x0200 0x25 [(0x0200, 0x4A)])) =
      some ⟨0x7F, 0x00, 0x00, 0xFD, 0x0201, 0x24, []⟩ := by decide

theorem test_sh5_rol_acc :
    seen [] (step (start 0x80 0x00 0x00 0xFD 0x0200 0x25 [(0x0200, 0x2A)])) =
      some ⟨0x01, 0x00, 0x00, 0xFD, 0x0201, 0x25, []⟩ := by decide

theorem test_sh11_rol_zpx :
    seen [0x0000] (step (start 0x00 0x01 0x00 0xFD 0x0200 0x25 [(0x0000, 0x7F), (0x0200, 0x36), (0x0201, 0xFF)])) =
      some ⟨0x00, 0x01, 0x00, 0xFD, 0x0202, 0xA4, [0xFF]⟩ := by decide

theorem test_sh8_ror_acc :
    seen [] (step (start 0x00 0x00 0x00 0xFD 0x0200 0x25 [(0x0200, 0x6A)])) =
      some ⟨0x80, 0x00, 0x00, 0xFD, 0x0201, 0xA4, []⟩ := by decide

theorem test_sh12_ror_abs :
    seen [0x3000] (step (start 0x99 0x00 0x00 0xFD 0x0200 0x25 [(0x3000, 0x02), (0x0200, 0x6E), (0x0201, 0x00), (0x0202, 0x30)])) =
      some ⟨0x99, 0x00, 0x00, 0xFD, 0x0203, 0xA4, [0x81]⟩ := by decide

theorem test_lg2_and_imm :
    seen [] (step (start 0xFF 0x00 0x00 0xFD 0x0200 0x24 [(0x0200, 0x29), (0x0201, 0x80)])) =
      some ⟨0x80, 0x00, 0x00, 0xFD, 0x0202, 0xA4, []⟩ := by decide

theorem test_lg4_ora_imm :
    seen [] (step (start 0x02 0x00 0x00 0xFD 0x0200 0x24 [(0x0200, 0x09), (0x0201, 0x81)])) =
      some ⟨0x83, 0x00, 0x00, 0xFD, 0x0202, 0xA4, []⟩ := by decide

theorem test_lg5_eor_imm :
    seen [] (step (start 0x0F 0x00 0x00 0xFD 0x0200 0x24 [(0x0200, 0x49), (0x0201, 0xFF)])) =
      some ⟨0xF0, 0x00, 0x00, 0xFD, 0x0202, 0xA4, []⟩ := by decide

theorem test_lg7_bit_zp :
    seen [] (step (start 0x3F 0x00 0x00 0xFD 0x0200 0x24 [(0x0010, 0xC0), (0x0200, 0x24), (0x0201, 0x10)])) =
      some ⟨0x3F, 0x00, 0x00, 0xFD, 0x0202, 0xE6, []⟩ := by decide

theorem test_lg8_bit_abs :
    seen [] (step (start 0xFF 0x00 0x00 0xFD 0x0200 0xA4 [(0x3000, 0x40), (0x0200, 0x2C), (0x0201, 0x00), (0x0202, 0x30)])) =
      some ⟨0xFF, 0x00, 0x00, 0xFD, 0x0203, 0x64, []⟩ := by decide

theorem test_id1_inc_zp :
    seen [0x0010] (step (start 0x00 0x00 0x00 0xFD 0x0200 0x25 [(0x0010, 0xFF), (0x0200, 0xE6), (0x0201, 0x10)])) =
      some ⟨0x00, 0x00, 0x00, 0xFD, 0x0202, 0x27, [0x00]⟩ := by decide

theorem test_id3_inc_abs :
    seen [0x3000] (step (start 0x00 0x00 0x00 0xFD 0x0200 0x24 [(0x3000, 0x7F), (0x0200, 0xEE), (0x0201, 0x00), (0x0202, 0x30)])) =
      some ⟨0x00, 0x00, 0x00, 0xFD, 0x0203, 0xA4, [0x80]⟩ := by decide

theorem test_id2_dec_zp :
    seen [0x0010] (step (start 0x00 0x00 0x00 0xFD 0x0200 0x24 [(0x0010, 0x00), (0x0200, 0xC6), (0x0201, 0x10)])) =
      some ⟨0x00, 0x00, 0x00, 0xFD, 0x0202, 0xA4, [0xFF]⟩ := by decide

theorem test_id4_dec_absx :
    seen [0x3000] (step (start 0x00 0x01 0x00 0xFD 0x0200 0x24 [(0x3000, 0x01), (0x0200, 0xDE), (0x0201, 0xFF), (0x0202, 0x2F)])) =
      some ⟨0x00, 0x01, 0x00, 0xFD, 0x0203, 0x26, [0x00]⟩ := by decide

theorem test_id5_inx_imp :
    seen [] (step (start 0x00 0xFF 0x00 0xFD 0x0200 0x24 [(0x0200, 0xE8)])) =
      some ⟨0x00, 0x00, 0x00, 0xFD, 0x0201, 0x26, []⟩ := by decide

theorem test_id6_iny_imp :
    seen [] (step (start 0x00 0x00 0x7F 0xFD 0x0200 0x24 [(0x0200, 0xC8)])) =
      some ⟨0x00, 0x00, 0x80, 0xFD, 0x0201, 0xA4, []⟩ := by decide

theorem test_id7_dex_imp :
    seen [] (step (start 0x00 0x00 0x00 0xFD 0x0200 0x24 [(0x0200, 0xCA)])) =
      some ⟨0x00, 0xFF, 0x00, 0xFD, 0x0201, 0xA4, []⟩ := by decide

theorem test_id8_dey_imp :
    seen [] (step (start 0x00 0x00 0x01 0xFD 0x0200 0x24 [(0x0200, 0x88)])) =
      some ⟨0x00, 0x00, 0x00, 0xFD, 0x0201, 0x26, []⟩ := by decide

theorem test_ct1_jmp_abs :
    seen [] (step (start 0x00 0x00 0x00 0xFD 0x0200 0x24 [(0x0200, 0x4C), (0x0201, 0x34), (0x0202, 0x12)])) =
      some ⟨0x00, 0x00, 0x00, 0xFD, 0x1234, 0x24, []⟩ := by decide

theorem test_ct2_jmp_ind :
    seen [] (step (start 0x00 0x00 0x00 0xFD 0x0200 0x24 [(0x3020, 0x78), (0x3021, 0x56), (0x0200, 0x6C), (0x0201, 0x20), (0x0202, 0x30)])) =
      some ⟨0x00, 0x00, 0x00, 0xFD, 0x5678, 0x24, []⟩ := by decide

theorem test_ct6_jsr_abs :
    seen [0x0100, 0x01FF] (step (start 0x00 0x00 0x00 0x00 0x0200 0x24 [(0x0200, 0x20), (0x0201, 0x34), (0x0202, 0x12)])) =
      some ⟨0x00, 0x00, 0x00, 0xFE, 0x1234, 0x24, [0x02, 0x02]⟩ := by decide

theorem test_ct4_jsr_abs :
    seen [0x01FD, 0x01FC] (step (start 0x00 0x00 0x00 0xFD 0x1000 0x24 [(0x1000, 0x20), (0x1001, 0x00), (0x1002, 0x20)])) =
      some ⟨0x00, 0x00, 0x00, 0xFB, 0x2000, 0x24, [0x10, 0x02]⟩ := by decide

theorem test_ct5_rts_imp :
    seen [] (step (start 0x00 0x00 0x00 0xFB 0x2000 0x24 [(0x01FC, 0x02), (0x01FD, 0x10), (0x2000, 0x60)])) =
      some ⟨0x00, 0x00, 0x00, 0xFD, 0x1003, 0x24, []⟩ := by decide

theorem test_ct7_rts_imp :
    seen [] (step (start 0x00 0x00 0x00 0xFB 0x2000 0x24 [(0x01FC, 0xFF), (0x01FD, 0xFF), (0x2000, 0x60)])) =
      some ⟨0x00, 0x00, 0x00, 0xFD, 0x0000, 0x24, []⟩ := by decide

theorem test_ct8_bne_rel :
    seen [] (step (start 0x00 0x00 0x00 0xFD 0x0200 0x26 [(0x0200, 0xD0), (0x0201, 0x10)])) =
      some ⟨0x00, 0x00, 0x00, 0xFD, 0x0202, 0x26, []⟩ := by decide

theorem test_ct9_bne_rel :
    seen [] (step (start 0x00 0x00 0x00 0xFD 0x0200 0x24 [(0x0200, 0xD0), (0x0201, 0x10)])) =
      some ⟨0x00, 0x00, 0x00, 0xFD, 0x0212, 0x24, []⟩ := by decide

theorem test_ct10_beq_rel :
    seen [] (step (start 0x00 0x00 0x00 0xFD 0x0210 0x26 [(0x0210, 0xF0), (0x0211, 0xFC)])) =
      some ⟨0x00, 0x00, 0x00, 0xFD, 0x020E, 0x26, []⟩ := by decide

theorem test_ct11_bcc_rel :
    seen [] (step (start 0x00 0x00 0x00 0xFD 0x0200 0x24 [(0x0200, 0x90), (0x0201, 0x7F)])) =
      some ⟨0x00, 0x00, 0x00, 0xFD, 0x0281, 0x24, []⟩ := by decide

theorem test_ct12_bcs_rel :
    seen [] (step (start 0x00 0x00 0x00 0xFD 0x0200 0x25 [(0x0200, 0xB0), (0x0201, 0x80)])) =
      some ⟨0x00, 0x00, 0x00, 0xFD, 0x0182, 0x25, []⟩ := by decide

theorem test_ct13_bmi_rel :
    seen [] (step (start 0x00 0x00 0x00 0xFD 0xFFFD 0xA4 [(0xFFFD, 0x30), (0xFFFE, 0x02)])) =
      some ⟨0x00, 0x00, 0x00, 0xFD, 0x0001, 0xA4, []⟩ := by decide

theorem test_ct17_bpl_rel :
    seen [] (step (start 0x00 0x00 0x00 0xFD 0x0010 0x24 [(0x0010, 0x10), (0x0011, 0x80)])) =
      some ⟨0x00, 0x00, 0x00, 0xFD, 0xFF92, 0x24, []⟩ := by decide

theorem test_ct15_bvc_rel :
    seen [] (step (start 0x00 0x00 0x00 0xFD 0x0200 0x64 [(0x0200, 0x50), (0x0201, 0x05)])) =
      some ⟨0x00, 0x00, 0x00, 0xFD, 0x0202, 0x64, []⟩ := by decide

theorem test_ct16_bvs_rel :
    seen [] (step (start 0x00 0x00 0x00 0xFD 0x0200 0x64 [(0x0200, 0x70), (0x0201, 0x05)])) =
      some ⟨0x00, 0x00, 0x00, 0xFD, 0x0207, 0x64, []⟩ := by decide

theorem test_sy1_brk_imp :
    seen [0x01FD, 0x01FC, 0x01FB] (step (start 0x00 0x00 0x00 0xFD 0x0200 0xA1 [(0xFFFE, 0x00), (0xFFFF, 0x80), (0x0200, 0x00), (0x0201, 0xEA)])) =
      some ⟨0x00, 0x00, 0x00, 0xFA, 0x8000, 0xB5, [0x02, 0x02, 0xB1]⟩ := by decide

theorem test_sy2_brk_imp :
    seen [0x0101, 0x0100, 0x01FF] (step (start 0x00 0x00 0x00 0x01 0xFFFF 0x24 [(0xFFFE, 0x34), (0xFFFF, 0x00), (0x0000, 0xEA)])) =
      some ⟨0x00, 0x00, 0x00, 0xFE, 0x0034, 0x34, [0x00, 0x01, 0x34]⟩ := by decide

theorem test_sy3_rti_imp :
    seen [] (step (start 0x00 0x00 0x00 0xFA 0x8000 0x34 [(0x01FB, 0xB1), (0x01FC, 0x02), (0x01FD, 0x02), (0x8000, 0x40)])) =
      some ⟨0x00, 0x00, 0x00, 0xFD, 0x0202, 0xB1, []⟩ := by decide

theorem test_sy4_rti_imp :
    seen [] (step (start 0x00 0x00 0x00 0xFA 0x8000 0x24 [(0x01FB, 0x00), (0x01FC, 0xFF), (0x01FD, 0xFF), (0x8000, 0x40)])) =
      some ⟨0x00, 0x00, 0x00, 0xFD, 0xFFFF, 0x20, []⟩ := by decide

theorem test_sy5_clc_imp :
    seen [] (step (start 0x00 0x00 0x00 0xFD 0x0200 0x27 [(0x0200, 0x18)])) =
      some ⟨0x00, 0x00, 0x00, 0xFD, 0x0201, 0x26, []⟩ := by decide

theorem test_sy5b_sec_imp :
    seen [] (step (start 0x00 0x00 0x00 0xFD 0x0200 0x24 [(0x0200, 0x38)])) =
      some ⟨0x00, 0x00, 0x00, 0xFD, 0x0201, 0x25, []⟩ := by decide

theorem test_sy6_cld_imp :
    seen [] (step (start 0x00 0x00 0x00 0xFD 0x0200 0x2C [(0x0200, 0xD8)])) =
      some ⟨0x00, 0x00, 0x00, 0xFD, 0x0201, 0x24, []⟩ := by decide

theorem test_sy6b_sed_imp :
    seen [] (step (start 0x00 0x00 0x00 0xFD 0x0200 0x24 [(0x0200, 0xF8)])) =
      some ⟨0x00, 0x00, 0x00, 0xFD, 0x0201, 0x2C, []⟩ := by decide

theorem test_sy7_cli_imp :
    seen [] (step (start 0x00 0x00 0x00 0xFD 0x0200 0x24 [(0x0200, 0x58)])) =
      some ⟨0x00, 0x00, 0x00, 0xFD, 0x0201, 0x20, []⟩ := by decide

theorem test_sy7b_sei_imp :
    seen [] (step (start 0x00 0x00 0x00 0xFD 0x0200 0x20 [(0x0200, 0x78)])) =
      some ⟨0x00, 0x00, 0x00, 0xFD, 0x0201, 0x24, []⟩ := by decide

theorem test_sy7c_clv_imp :
    seen [] (step (start 0x00 0x00 0x00 0xFD 0x0200 0xE4 [(0x0200, 0xB8)])) =
      some ⟨0x00, 0x00, 0x00, 0xFD, 0x0201, 0xA4, []⟩ := by decide

theorem test_sy8_nop_imp :
    seen [] (step (start 0x12 0x00 0x00 0xFD 0x0200 0xA5 [(0x0200, 0xEA)])) =
      some ⟨0x12, 0x00, 0x00, 0xFD, 0x0201, 0xA5, []⟩ := by decide

theorem test_sy9_unassigned :
    faultOf (step (start 0x12 0x34 0x56 0xFD 0x0200 0x25 [(0x0200, 0xFF)])) = some (.dispatch 0xFF) := by decide

theorem test_sy11_unassigned :
    faultOf (step (start 0x00 0x00 0x00 0xFD 0x0200 0x24 [(0x0200, 0x80), (0x0201, 0x10)])) = some (.dispatch 0x80) := by decide

/-! ## JMP (indirect) under both values of the open parameter (CT3a, CT3b) -/

theorem test_ct3a_jump_target :
    jumpTarget false 0x30FF (start 0 0 0 0xFD 0x0200 0x24 [(0x3000, 0x80), (0x30FF, 0x40), (0x3100, 0x50)]) = 0x5040 := by
  decide

theorem test_ct3b_jump_target :
    jumpTarget true 0x30FF (start 0 0 0 0xFD 0x0200 0x24 [(0x3000, 0x80), (0x30FF, 0x40), (0x3100, 0x50)]) = 0x8040 := by
  decide

/-! ## Host moves (RS1, RS2, IQ1, IQ2; R28) -/

theorem test_rs1_reset :
    seenIn [] (resetState 0xFD (start 0x99 0x88 0x77 0x12 0x4321 0xEB [(0xFFFC, 0x00), (0xFFFD, 0x06)]).bus) =
      ⟨0x00, 0x00, 0x00, 0xFD, 0x0600, 0x24, []⟩ := by decide

theorem test_iq1_interrupt_taken :
    seenIn [0x01FD, 0x01FC, 0x01FB]
        (start 0x11 0x00 0x00 0xFD 0x0345 0x39 [(0xFFFE, 0x00), (0xFFFF, 0x90)]).interruptRequest =
      ⟨0x11, 0x00, 0x00, 0xFA, 0x9000, 0x2D, [0x03, 0x45, 0x29]⟩ := by decide

theorem test_iq2_interrupt_masked :
    (start 0x00 0x00 0x00 0xFD 0x0345 0x25 [(0xFFFE, 0x00), (0xFFFF, 0x90)]).interruptRequest =
      start 0x00 0x00 0x00 0xFD 0x0345 0x25 [(0xFFFE, 0x00), (0xFFFF, 0x90)] := by decide

/-! ## The router (S7 and its further instances, R56) -/

/-- Two regions, at `0x0000` and `0x8000`. -/
def twoRegions : Store := .attach (.attach .empty 0x0000 (.leaf .ram)) 0x8000 (.leaf .rom)

theorem test_s7_below_boundary : twoRegions.locate 0x7FFF = some ⟨0x0000, 0x7FFF, .ram⟩ := by decide
theorem test_s7_at_boundary : twoRegions.locate 0x8000 = some ⟨0x8000, 0x0000, .rom⟩ := by decide
theorem test_s7_top : twoRegions.locate 0xFFFF = some ⟨0x8000, 0x7FFF, .rom⟩ := by decide

theorem test_s7_before_first_region :
    (Store.attach (.attach .empty 0x4000 (.leaf .ram)) 0x8000 (.leaf .ram)).locate 0x3FFF = none := by decide

theorem test_equal_starts_later_wins :
    (Store.attach (.attach .empty 0x0000 (.leaf .ram)) 0x0000 (.leaf .rom)).backing 0x0005 = .rom := by decide

theorem test_nested_router_unmapped :
    (Store.attach .empty 0x4000 (.attach .empty 0x1000 (.leaf .ram))).locate 0x4FFF = some ⟨0x4000, 0x0FFF, .null⟩ := by
  decide

theorem test_router_out_of_order_refused :
    (match buildRouter [(0x8000, .leaf .ram), (0x4000, .leaf .ram)] with
      | .refused why => decide (why = .attachOrder)
      | .next _ | .fault _ => false) = true := by decide

/-! ## A program placed at the reset PC -/

theorem test_fetch_word_runs_first :
    seen [] (step (State.reset.withFetchWord 16 0x42A9)) = some ⟨0x42, 0x00, 0x00, 0xFD, 0x0002, 0x24, []⟩ := by
  decide

/-! ## Witnesses: for each statement with hypotheses, a state and operands that meet them all, one theorem a clause -/

/-- A state on `FlatRam` in the middle of a run; `0x0400` holds LDA #$42. -/
def mid : State := start 0x80 0xFF 0x01 0x00 0x0400 0x21 [(0x0010, 0x34), (0x0400, 0xA9), (0x0401, 0x42)]

/-- The same over a ROM in the upper half, which holds NOP at `0x8000`. -/
def midRom : State :=
  { mid with pc := 0x8000, bus := { map := twoRegions, cells := [(0x0010, 0x34), (0x8000, 0xEA)], ticks := 7 } }

theorem witness_EncodeInvertsDecode : decode [0xA9, 0x42, 0xEA] = .ok (.ldaImm 0x42, [0xEA]) := by rfl

theorem witness_UnassignedBytes_fault : decode [0xFF, 0x00] = .error (.unassigned 0xFF) ∧ (0xFF : Byte) ∈ unassignedBytes :=
  ⟨rfl, by decide⟩

theorem witness_StepRunsDecodedInstruction :
    decode [mid.read mid.pc, mid.read (mid.pc + 1), mid.read (mid.pc + 2)] = .ok (.ldaImm 0x42, [0x00]) ∧
    ∃ t, exec (.ldaImm 0x42) mid = .next t := ⟨by rfl, _, rfl⟩

/-- The instruction lies across the top of the address space. -/
theorem witness_StepRunsInstructionStoredAtPc :
    let s := start 0x00 0x00 0x00 0xFD 0xFFFE 0x20 [(0xFFFE, 0xAD), (0xFFFF, 0x34), (0x0000, 0x12)]
    (∀ (k : Nat) (b : Byte), (encode (.ldaAbs 0x1234))[k]? = some b → s.read (s.pc + BitVec.ofNat 16 k) = b) ∧
    ∃ t, exec (.ldaAbs 0x1234) s = .next t := by
  refine ⟨fun k b h => ?_, _, rfl⟩
  match k, h with
  | 0, h => cases h; decide
  | 1, h => cases h; decide
  | 2, h => cases h; decide

theorem witness_StepFaults_unassigned :
    (start 0x00 0x00 0x00 0xFD 0x0400 0x20 [(0x0400, 0x02)]).read 0x0400 ∈ unassignedBytes := by decide

theorem witness_StepFaults_assigned : mid.read mid.pc ∉ unassignedBytes := by decide

theorem witness_DispatchFault_unmapped_and_rom :
    twoRegions.backing 0x8000 = .rom ∧ (Store.attach .empty 0x4000 (.leaf .ram)).backing 0x3FFF = .null := by decide

theorem witness_StepIssuesOneBusTick : (∃ t, exec .nop mid = .next t) ∧ ∃ t, step mid = .next t := ⟨⟨_, rfl⟩, _, rfl⟩

theorem witness_StepKeepsBusInOrder : midRom.wf = true ∧ ∃ t, step midRom = .next t := ⟨by decide, _, rfl⟩

theorem witness_StepKeepsMapAndReadOnlyBytes :
    (∃ t, step midRom = .next t) ∧ midRom.bus.map.backing (0xFFFF : Word).toNat ≠ .ram := ⟨⟨_, rfl⟩, by decide⟩

theorem witness_ReadReturnsLatestWrite_ram :
    midRom.bus.wf = true ∧ midRom.bus.map.backing (0x7FFF : Word).toNat = .ram := by decide

theorem witness_ReadReturnsLatestWrite_rom :
    midRom.bus.wf = true ∧ midRom.bus.map.backing (0x8000 : Word).toNat ≠ .ram := by decide

theorem witness_CanonicalMemories :
    Memory.wf [(0x0000, 0x01), (0xFFFF, 0xFF)] = true ∧
    ∀ k : Nat, Memory.get [(0x0000, 0x01), (0xFFFF, 0xFF)] k = Memory.get [(0x0000, 0x01), (0xFFFF, 0xFF)] k :=
  ⟨by decide, fun _ => rfl⟩

theorem witness_NullStore : ({ map := .leaf .null, cells := [], ticks := 0 } : Bus).map.backing (0xFFFF : Word).toNat = .null := by
  decide

theorem witness_RouterFansOut : twoRegions.isRouter = true := by decide

/-- Two entries of one start: the later is selected at that start itself. -/
theorem witness_RouterSelects_equal_starts :
    let r := Store.attach (.attach .empty 0x8000 (.leaf .ram)) 0x8000 (.leaf .rom)
    r.isRouter = true ∧ r.entries = [(0x8000, .leaf .ram)] ++ (0x8000, .leaf .rom) :: [] ∧
    (0x8000 : Word).toNat ≤ 0x8000 ∧
    (∀ f ∈ [((0x8000 : Word), Store.leaf .ram)], f.1.toNat ≤ 0x8000 → f.1.toNat ≤ (0x8000 : Word).toNat) := by decide

/-- A later entry whose region starts one address further on. -/
theorem witness_RouterSelects_later_entry_above :
    twoRegions.isRouter = true ∧ twoRegions.entries = [] ++ (0x0000, .leaf .ram) :: [(0x8000, .leaf .rom)] ∧
    (0x0000 : Word).toNat ≤ 0x7FFF ∧
    (∀ f ∈ [((0x8000 : Word), Store.leaf .rom)], f.1.toNat ≤ 0x7FFF → f.1.toNat < (0x0000 : Word).toNat) := by decide

theorem witness_RouterSelects_unmapped :
    (Store.attach .empty 0x4000 (.leaf .ram)).isRouter = true ∧
    ∀ e ∈ (Store.attach .empty 0x4000 (.leaf .ram)).entries, 0x3FFF < e.1.toNat := by decide

theorem witness_RouterIsBuilt_ascending :
    [((0x4000 : Word), Store.leaf .ram), (0x4000, .leaf .rom)].Pairwise (fun e f => e.1.toNat ≤ f.1.toNat) := by decide

theorem witness_RouterIsBuilt_descending :
    ¬ [((0x4001 : Word), Store.leaf .ram), (0x4000, .leaf .rom)].Pairwise (fun e f => e.1.toNat ≤ f.1.toNat) := by decide

theorem witness_DecimalDoesNotAlter :
    (Instr.adcImm 0x15).form = .read .adc (.imm 0x15) ∧ (Instr.sbcIndy 0xFF).form = .read .sbc (.mem (.indy 0xFF)) :=
  ⟨rfl, rfl⟩

theorem witness_DecimalIsObserved :
    AgreeButDecimal mid { mid with p := { mid.p with d := true } } ∧ mid.read mid.pc ≠ 0x08 ∧ mid.read mid.pc ≠ 0x00 ∧
    ∃ t, step mid = .next t := ⟨rfl, by decide, by decide, _, rfl⟩

theorem witness_Loads :
    (Instr.ldaImm 0x00).form = .read .lda (.imm 0x00) ∧ (Instr.ldxZpy 0xFF).form = .read .ldx (.mem (.zpy 0xFF)) ∧
    (Instr.ldyAbsx 0xFFFF).form = .read .ldy (.mem (.absx 0xFFFF)) := ⟨rfl, rfl, rfl⟩

theorem witness_Stores :
    (Instr.staIndx 0xFF).form = .store .sta (.indx 0xFF) ∧ (Instr.stxZpy 0x00).form = .store .stx (.zpy 0x00) ∧
    (Instr.styAbs 0xFFFF).form = .store .sty (.abs 0xFFFF) := ⟨rfl, rfl, rfl⟩

theorem witness_Shifts :
    Instr.aslAcc.form = .rmw .asl .acc ∧ (Instr.lsrZp 0xFF).form = .rmw .lsr (.mem (.zp 0xFF)) ∧
    Instr.rolAcc.form = .rmw .rol .acc ∧ (Instr.rorAbsx 0xFFFF).form = .rmw .ror (.mem (.absx 0xFFFF)) :=
  ⟨rfl, rfl, rfl, rfl⟩

theorem witness_IncrementsAndDecrements :
    (Instr.incZpx 0xFF).form = .rmw .inc (.mem (.zpx 0xFF)) ∧ (Instr.decAbs 0xFFFF).form = .rmw .dec (.mem (.abs 0xFFFF)) :=
  ⟨rfl, rfl⟩

theorem witness_Logic :
    (Instr.andImm 0x0F).form = .read .and (.imm 0x0F) ∧ (Instr.oraAbsy 0xFFFF).form = .read .ora (.mem (.absy 0xFFFF)) ∧
    (Instr.eorIndy 0xFF).form = .read .eor (.mem (.indy 0xFF)) := ⟨rfl, rfl, rfl⟩

theorem witness_Bit :
    (Instr.bitZp 0xFF).form = .read .bit (.mem (.zp 0xFF)) ∧ (Instr.bitAbs 0xFFFF).form = .read .bit (.mem (.abs 0xFFFF)) :=
  ⟨rfl, rfl⟩

theorem witness_Arithmetic :
    (Instr.adcImm 0xFF).form = .read .adc (.imm 0xFF) ∧ (Instr.sbcAbsx 0xFFFF).form = .read .sbc (.mem (.absx 0xFFFF)) ∧
    (Instr.cmpIndx 0xFF).form = .read .cmp (.mem (.indx 0xFF)) ∧ (Instr.cpxZp 0xFF).form = .read .cpx (.mem (.zp 0xFF)) ∧
    (Instr.cpyAbs 0xFFFF).form = .read .cpy (.mem (.abs 0xFFFF)) := ⟨rfl, rfl, rfl, rfl, rfl⟩

theorem witness_Branches :
    (Instr.bcc 0x80).form = .branch .bcc 0x80 ∧ (Instr.bcs 0x7F).form = .branch .bcs 0x7F ∧
    (Instr.beq 0xFF).form = .branch .beq 0xFF ∧ (Instr.bmi 0x00).form = .branch .bmi 0x00 ∧
    (Instr.bne 0xFE).form = .branch .bne 0xFE ∧ (Instr.bpl 0x01).form = .branch .bpl 0x01 ∧
    (Instr.bvc 0x80).form = .branch .bvc 0x80 ∧ (Instr.bvs 0x7F).form = .branch .bvs 0x7F :=
  ⟨rfl, rfl, rfl, rfl, rfl, rfl, rfl, rfl⟩

theorem witness_ReadOnlyOperandFrame_lda :
    (Instr.ldaAbs 0xFFFF).form = .read .lda (.mem (.abs 0xFFFF)) ∧ (∃ t, exec (.ldaAbs 0xFFFF) mid = .next t) ∧
    ReadOp.lda ≠ .ldx ∧ ReadOp.lda ≠ .ldy ∧ ReadOp.lda ∉ [.adc, .sbc, .cmp, .cpx, .cpy] ∧
    ReadOp.lda ∉ [.adc, .sbc, .bit] := ⟨rfl, ⟨_, rfl⟩, by decide, by decide, by decide, by decide⟩

theorem witness_ReadOnlyOperandFrame_cmp :
    (Instr.cmpImm 0xFF).form = .read .cmp (.imm 0xFF) ∧ (∃ t, exec (.cmpImm 0xFF) mid = .next t) ∧
    ReadOp.cmp ∉ [.lda, .and, .ora, .eor, .adc, .sbc] := ⟨rfl, ⟨_, rfl⟩, by decide⟩

theorem witness_StoreFrame :
    (Instr.staAbsx 0xFFFF).form = .store .sta (.absx 0xFFFF) ∧ (∃ t, exec (.staAbsx 0xFFFF) mid = .next t) ∧
    effAddr (.absx 0xFFFF) mid = 0x00FE := ⟨rfl, ⟨_, rfl⟩, by decide⟩

theorem witness_ReadModifyWriteFrame_accumulator :
    Instr.aslAcc.form = .rmw .asl .acc ∧ ∃ t, exec .aslAcc mid = .next t := ⟨rfl, _, rfl⟩

theorem witness_ReadModifyWriteFrame_memory :
    (Instr.incZpx 0xFF).form = .rmw .inc (.mem (.zpx 0xFF)) ∧ (∃ t, exec (.incZpx 0xFF) mid = .next t) ∧
    effAddr (.zpx 0xFF) mid = 0x00FE := ⟨rfl, ⟨_, rfl⟩, by decide⟩

theorem witness_RegisterAndPullFrame_jumps :
    (Instr.jmpAbs 0xFFFF).form = .jump 0xFFFF ∧ (∃ t, exec (.jmpAbs 0xFFFF) mid = .next t) ∧
    (Instr.jmpInd 0x30FF).form = .jumpInd 0x30FF ∧ (∃ t, exec (.jmpInd 0x30FF) mid = .next t) ∧
    (Instr.bne 0x80).form = .branch .bne 0x80 ∧ ∃ t, exec (.bne 0x80) mid = .next t :=
  ⟨rfl, ⟨_, rfl⟩, rfl, ⟨_, rfl⟩, rfl, _, rfl⟩

/-- One instruction for each clause on the implied instructions. -/
theorem witness_RegisterAndPullFrame_implied :
    (Instr.txs.form = .implied .txs ∧ ∃ t, exec .txs mid = .next t) ∧
    (Instr.pla.form = .implied .pla ∧ ∃ t, exec .pla mid = .next t) ∧
    (Instr.clc.form = .implied .clc ∧ ∃ t, exec .clc mid = .next t) ∧
    (Instr.sed.form = .implied .sed ∧ ∃ t, exec .sed mid = .next t) ∧
    (Instr.cli.form = .implied .cli ∧ ∃ t, exec .cli mid = .next t) ∧
    (Instr.clv.form = .implied .clv ∧ ∃ t, exec .clv mid = .next t) :=
  ⟨⟨rfl, _, rfl⟩, ⟨rfl, _, rfl⟩, ⟨rfl, _, rfl⟩, ⟨rfl, _, rfl⟩, ⟨rfl, _, rfl⟩, ⟨rfl, _, rfl⟩⟩

/-- `mid` has SP at `0x00`, where the pushes wrap. -/
theorem witness_PushFrame :
    (Instr.pha.form = .implied .pha ∧ ∃ t, exec .pha mid = .next t) ∧
    (Instr.php.form = .implied .php ∧ ∃ t, exec .php mid = .next t) ∧
    ((Instr.jsr 0x1234).form = .call 0x1234 ∧ ∃ t, exec (.jsr 0x1234) mid = .next t) ∧
    (Instr.brk.form = .implied .brk ∧ ∃ t, exec .brk mid = .next t) :=
  ⟨⟨rfl, _, rfl⟩, ⟨rfl, _, rfl⟩, ⟨rfl, _, rfl⟩, rfl, _, rfl⟩

/-- A flag of a result, and whether the instruction changed it. -/
def flagChanged (f : Status → Bool) (i : Instr) (s : State) : Bool :=
  match exec i s with
  | .next t => f t.p != f s.p
  | .fault _ | .refused _ => false

theorem witness_FlagsChangeOnlyByTheirWriters :
    flagChanged Status.c .clc mid = true ∧ flagChanged Status.z (.ldaImm 0x00) mid = true ∧
    flagChanged Status.n (.ldaImm 0x80) mid = true ∧ flagChanged Status.i .sei mid = true ∧
    flagChanged Status.d .sed mid = true ∧ flagChanged Status.b .brk mid = true ∧
    flagChanged Status.v (.adcImm 0x80) mid = true := by decide

/-- A register of a result, and whether the instruction changed it. -/
def registerChanged (f : State → Byte) (i : Instr) (s : State) : Bool :=
  match exec i s with
  | .next t => f t != f s
  | .fault _ | .refused _ => false

theorem witness_RegistersChangeOnlyByTheirWriters :
    registerChanged State.a (.ldaImm 0x01) mid = true ∧ registerChanged State.x .inx mid = true ∧
    registerChanged State.y .tay mid = true ∧ registerChanged State.sp .pha mid = true := by decide

theorem witness_OtherInstructionsFallThrough :
    (∃ t, exec (.staAbsx 0xFFFF) mid = .next t) ∧ transfersControl (Instr.staAbsx 0xFFFF).form = false :=
  ⟨⟨_, rfl⟩, by decide⟩

/-- For the pushes and pulls and for RTS after JSR: SP at `0x00`. -/
theorem witness_RamStack : RamStack mid ∧ mid.sp = 0x00 := ⟨⟨by decide, fun _ => rfl⟩, rfl⟩

theorem witness_StoredInstructionRunsNext :
    let s := start 0xE8 0x7F 0x00 0xFD 0x0400 0x20 [(0x0400, 0x8D), (0x0401, 0x03), (0x0402, 0x04)]
    s.wf = true ∧ s.bus.map.backing (s.pc + 3).toNat = .ram ∧
    decode [s.read s.pc, s.read (s.pc + 1), s.read (s.pc + 2)] = .ok (.staAbs (s.pc + 3), []) ∧ s.a = 0xE8 :=
  ⟨by decide, by decide, by rfl, by decide⟩

theorem witness_InterruptRequest_taken_and_masked :
    mid.p.i = false ∧ { mid with p := { mid.p with i := true } }.p.i = true := by decide

theorem witness_RtiResumesInterruptedProgram : RamStack mid ∧ mid.p.i = false := ⟨⟨by decide, fun _ => rfl⟩, by decide⟩

theorem witness_SessionStartsWithReset :
    mid.bus = { mid with a := 0xAA, sp := 0x55 }.bus ∧ (∃ t, step mid = .next t) ∧
    ∃ f, step (start 0x00 0x00 0x00 0xFD 0x0400 0x20 [(0x0400, 0x02)]) = .fault f := ⟨rfl, ⟨_, rfl⟩, _, rfl⟩

end Sys2Proof.Tests
end

section
/-! PROOFS. The null store and the router's fan-out (20_memory.md rules R57, R58). -/

namespace Sys2Proof.Machine

/-- R58, R56: where the null store answers, or no store at all, a read gives 0. -/
theorem Bus.read_of_null {b : Bus} {a : Word} (h : b.map.backing a.toNat = .null) : b.read a = 0x00 := by
  simp [Bus.read, h]

/-- R58, R56: where the null store answers, or no store at all, a write changes nothing. -/
theorem Bus.write_of_null {b : Bus} {a : Word} (v : Byte) (h : b.map.backing a.toNat = .null) : b.write a v = b :=
  Bus.write_dropped v (by simp [h])

/-- R57: a tick is every contained store's tick, in the order of attachment. -/
theorem Store.entries_tick (st : Store) : st.tick.entries = st.entries.map fun e => (e.1, e.2.tick) := by
  induction st with
  | leaf k => rfl
  | empty => rfl
  | attach router start child ih => simp [Store.tick, Store.entries, ih, -Store.tick_eq]

/-- R57: a reset is every contained store's reset, in the order of attachment. -/
theorem Store.entries_reset (st : Store) : st.reset.entries = st.entries.map fun e => (e.1, e.2.reset) := by
  induction st with
  | leaf k => rfl
  | empty => rfl
  | attach router start child ih => simp [Store.reset, Store.entries, ih, -Store.reset_eq]

/-- Settles O15. The store's own operations compute; what stands behind it is read and written by the rules of the bus. -/
theorem nullStoreReadsZeroAndIgnoresWrites : Obligations.NullStoreReadsZeroAndIgnoresWrites :=
  ⟨fun _ => rfl, rfl, rfl, fun _ _ v h => ⟨Bus.read_of_null h, Bus.write_of_null v h⟩⟩

/-- Settles O16, by induction on the attachments. That ticks and resets keep every store (`Store.tick_eq`) is not used. -/
theorem routerFansOutTickAndReset : Obligations.RouterFansOutTickAndReset :=
  fun r _ => ⟨r.entries_tick, r.entries_reset⟩

end Sys2Proof.Machine
end

section
/-! PROOFS. The direct addressing modes (40_addressing_modes.md rules R104 to R109): an indexed one adds its index either
to a zero-page byte, before it becomes an address, or to a word, after the index has been widened. -/

namespace Sys2Proof.Machine

/-- R105, R106: the sum is a byte before it is an address, so it stays in the zero page. -/
theorem zext16_add_toNat (b i : Byte) : (zext16 (b + i)).toNat = (b.toNat + i.toNat) % 256 := by
  rw [zext16_toNat, BitVec.toNat_add]

/-- R108, R109: the sum is a word, so it carries into the high byte. -/
theorem add_zext16_toNat (w : Word) (i : Byte) : (w + zext16 i).toNat = (w.toNat + i.toNat) % 65536 := by
  rw [BitVec.toNat_add, zext16_toNat]

/-- Settles O19. The six addresses in order, with the two indexed shapes by their rules; a length is its format's. -/
theorem directModesResolveToTheirAddresses : Obligations.DirectModesResolveToTheirAddresses :=
  fun b w s =>
    ⟨⟨zext16_toNat b, rfl⟩,
      ⟨zext16_add_toNat b s.x, rfl⟩,
      ⟨zext16_add_toNat b s.y, rfl⟩,
      ⟨rfl, rfl⟩,
      ⟨add_zext16_toNat w s.x, rfl⟩,
      ⟨add_zext16_toNat w s.y, rfl⟩⟩

end Sys2Proof.Machine
end

section
/-! PROOFS. The NZ helper and the ALU (41_alu.md rules R120 to R127). The bits of the model's definitions are read as
numbers once; the difference of R122 is the sum of R121 with the operand's complement. -/

namespace Sys2Proof.Machine

theorem flagBit_eq_toNat (b : Bool) : flagBit b = b.toNat := by
  cases b <;> rfl

theorem flagBit_le_one (b : Bool) : flagBit b ≤ 1 := by
  cases b <;> decide

theorem bit7_eq_decide (v : Byte) : v.getLsbD 7 = decide (128 ≤ v.toNat) :=
  (BitVec.msb_eq_getLsbD_last v).symm.trans (BitVec.msb_eq_decide v)

theorem byte_ofNat_mod (n : Nat) : BitVec.ofNat 8 (n % 256) = BitVec.ofNat 8 n :=
  BitVec.eq_of_toNat_eq (Nat.mod_mod n 256)

/-- R122's narrowing: 256 is added before the operand is taken away, so that the natural subtraction is exact. -/
theorem byte_sub_eq_ofNat (r v : Byte) : r - v = BitVec.ofNat 8 (r.toNat + 256 - v.toNat) := by
  apply BitVec.eq_of_toNat_eq
  have hv := v.isLt
  rw [BitVec.toNat_sub, BitVec.toNat_ofNat]
  omega

theorem complement_toNat (v : Byte) : (v ^^^ 0xFF).toNat = 255 - v.toNat := by
  have h : v ^^^ 0xFF = ~~~v := BitVec.xor_allOnes
  rw [h, BitVec.toNat_not]

theorem complement_toInt (v : Byte) : (v ^^^ 0xFF).toInt = -v.toInt - 1 := by
  have hv := v.isLt
  rw [BitVec.toInt_eq_toNat_cond, BitVec.toInt_eq_toNat_cond, complement_toNat]
  omega

/-- The table of 41_alu.md (R124, R125): operands of one sign give a byte of the other exactly where the signed sum does not
fit a byte. -/
theorem signs_differ_iff_signed_overflow (a v : Byte) (c : Bool) :
    let r : Byte := BitVec.ofNat 8 ((a.toNat + v.toNat + flagBit c) % 256)
    ((128 ≤ a.toNat ↔ 128 ≤ v.toNat) ∧ ¬ (128 ≤ r.toNat ↔ 128 ≤ a.toNat)) ↔
      a.toInt + v.toInt + (flagBit c : Int) < -128 ∨ 127 < a.toInt + v.toInt + (flagBit c : Int) := by
  have ha := a.isLt
  have hv := v.isLt
  have hc := flagBit_le_one c
  simp only [BitVec.toNat_ofNat, BitVec.toInt_eq_toNat_cond]
  omega

/-- R120: `SetNZ` as the statements write it. -/
theorem State.setNZ_eq (s : State) (v : Byte) : s.setNZ v = { s with p := nzOf s.p v } := by
  simp only [State.setNZ, nzOf, bit7_eq_decide, beq_eq_decide]

/-- R127: `AluAdd` neither reads nor writes Decimal. -/
theorem State.aluAdd_decimal (s : State) (d : Bool) (v : Byte) :
    State.aluAdd { s with p := { s.p with d := d } } v =
      { s.aluAdd v with p := { (s.aluAdd v).p with d := d } } := rfl

/-- R122, R127: nor does `AluSubtract`, which is `AluAdd` of the complement. -/
theorem State.aluSubtract_decimal (s : State) (d : Bool) (v : Byte) :
    State.aluSubtract { s with p := { s.p with d := d } } v =
      { s.aluSubtract v with p := { (s.aluSubtract v).p with d := d } } :=
  s.aluAdd_decimal d (v ^^^ 0xFF)

theorem operandValue_decimal (o : Operand) (s : State) (d : Bool) :
    operandValue o { s with p := { s.p with d := d } } = operandValue o s :=
  operandValue_congr rfl rfl rfl

theorem adc_decimal (o : Operand) (s : State) (d : Bool) :
    let t := (s.past o.length).aluAdd (operandValue o s)
    adc o { s with p := { s.p with d := d } } = .next { t with p := { t.p with d := d } } := by
  rw [adc, operandValue_decimal]
  exact congrArg Host.Outcome.next ((s.past o.length).aluAdd_decimal d _)

theorem sbc_decimal (o : Operand) (s : State) (d : Bool) :
    let t := (s.past o.length).aluSubtract (operandValue o s)
    sbc o { s with p := { s.p with d := d } } = .next { t with p := { t.p with d := d } } := by
  rw [sbc, operandValue_decimal]
  exact congrArg Host.Outcome.next ((s.past o.length).aluSubtract_decimal d _)

/-- Settles O23. A value that is 0 has bit 7 clear. -/
theorem setNZWritesZeroAndNegative : Obligations.SetNZWritesZeroAndNegative := by
  intro s v
  refine ⟨s.setNZ_eq v, ?_⟩
  rintro ⟨hz, hn⟩
  rw [State.setNZ_eq] at hz hn
  have hzero : v = 0 := of_decide_eq_true hz
  have hneg : 128 ≤ v.toNat := of_decide_eq_true hn
  subst hzero
  exact absurd hneg (by decide)

/-- Settles O24. The sum is narrowed modulo 256, and the sign bits that the model compares are comparisons with 128. -/
theorem aluAddIsNineBitSum : Obligations.AluAddIsNineBitSum := by
  intro s v sum r
  have hr : BitVec.ofNat 8 (s.a.toNat + v.toNat + s.p.c.toNat) = r := by
    rw [← flagBit_eq_toNat]
    exact (byte_ofNat_mod sum).symm
  have hv : ((s.a.getLsbD 7 == v.getLsbD 7) && (r.getLsbD 7 != s.a.getLsbD 7)) =
      decide ((128 ≤ s.a.toNat ↔ 128 ≤ v.toNat) ∧ ¬ (128 ≤ r.toNat ↔ 128 ≤ s.a.toNat)) := by
    rw [Bool.eq_iff_iff]
    simp only [Bool.and_eq_true, beq_iff_eq, bne_iff_ne, ne_eq, bit7_eq_decide, decide_eq_decide, decide_eq_true_iff]
  simp only [State.aluAdd, State.setNZ_eq, hr, hv, nzOf, sum, flagBit_eq_toNat]

/-- Settles O26. `AluAdd` of the complement: its sum is the difference plus 256, so the result, the Carry and the signed
sum are those of the difference. -/
theorem aluSubtractIsDifferenceWithBorrow : Obligations.AluSubtractIsDifferenceWithBorrow := by
  intro s v borrow r signed
  have hc := flagBit_le_one s.p.c
  have hv := v.isLt
  have hsum : s.a.toNat + (v ^^^ 0xFF).toNat + flagBit s.p.c = s.a.toNat + 256 - v.toNat - borrow := by
    rw [complement_toNat]
    omega
  have hr : BitVec.ofNat 8 ((s.a.toNat + (v ^^^ 0xFF).toNat + flagBit s.p.c) % 256) = r := by
    rw [hsum, byte_ofNat_mod]
  have hcarry : 256 ≤ s.a.toNat + (v ^^^ 0xFF).toNat + flagBit s.p.c ↔ v.toNat + borrow ≤ s.a.toNat := by
    omega
  have hsigned : s.a.toInt + (v ^^^ 0xFF).toInt + (flagBit s.p.c : Int) = signed := by
    rw [complement_toInt]
    omega
  have hoverflow := signs_differ_iff_signed_overflow s.a (v ^^^ 0xFF) s.p.c
  rw [hsigned, hr] at hoverflow
  have hadd := aluAddIsNineBitSum s (v ^^^ 0xFF)
  simp only [hr, hcarry, hoverflow] at hadd
  exact hadd

/-- Settles O27. The wrapped difference is made from a number, and N and Z are `SetNZ`'s. -/
theorem aluCompareSetsCarryAndNZ : Obligations.AluCompareSetsCarryAndNZ := by
  intro s r v
  rw [State.aluCompare, State.setNZ_eq, byte_sub_eq_ofNat]
  rfl

/-- Settles O28. The state after either D is the other's with D replaced. -/
theorem decimalDoesNotAlterArithmetic : Obligations.DecimalDoesNotAlterArithmetic := by
  rintro i o s d (hadc | hsbc)
  · exact ⟨_, _, exec_of_form hadc s, (exec_of_form hadc _).trans (adc_decimal o s d), rfl, rfl⟩
  · exact ⟨_, _, exec_of_form hsbc s, (exec_of_form hsbc _).trans (sbc_decimal o s d), rfl, rfl⟩

end Sys2Proof.Machine
end

section
/-! PROOFS. The dispatch fault is the only fault (60_exceptions.md rule R241): every shared operation of `runForm` answers a
next state, so a step can only stop before an instruction is decoded. -/

namespace Sys2Proof.Machine

/-- R241: the shared operation of every form completes. Within a form the operation picks the meaning; only INC and DEC also
depend on their target. -/
theorem runForm_completes (f : Form) (s : State) : ∃ t, runForm f s = .next t := by
  cases f with
  | read op o => cases op <;> exact ⟨_, rfl⟩
  | store op m => cases op <;> exact ⟨_, rfl⟩
  | rmw op g =>
    cases g with
    | acc => cases op <;> exact ⟨_, rfl⟩
    | mem m => cases op <;> exact ⟨_, rfl⟩
  | jump w => exact ⟨_, rfl⟩
  | jumpInd w => exact ⟨_, rfl⟩
  | call w => exact ⟨_, rfl⟩
  | branch op d => cases op <;> exact ⟨_, rfl⟩
  | implied op => cases op <;> exact ⟨_, rfl⟩

/-- R241: no instruction faults or is refused. -/
theorem exec_completes (i : Instr) (s : State) : ∃ t, exec i s = .next t := by
  rw [exec_eq_run]
  exact runForm_completes i.form s

/-- R75: an assigned byte at PC is a whole instruction, whatever the two bytes after it, and its step completes. -/
theorem step_completes_of_assigned {s : State} {r : OpRow} (h : opLookup (s.read s.pc) = some r) :
    ∃ t, step s = .next t := by
  obtain ⟨i, rest, hdecode⟩ : ∃ i rest, decode s.stream = .ok (i, rest) := decode_three h
  obtain ⟨u, hexec⟩ := exec_completes i s
  refine ⟨{ u with bus := u.bus.tick }, ?_⟩
  rw [step_of_decode hdecode, hexec, withTick_next]

/-- R240, R241: a step completes or is the dispatch fault of the byte at PC. -/
theorem step_completes_or_dispatch_fault (s : State) :
    (∃ t, step s = .next t) ∨ step s = .fault (.dispatch (s.read s.pc)) := by
  cases h : opLookup (s.read s.pc) with
  | none => exact .inr (step_of_unassigned h)
  | some r => exact .inl (step_completes_of_assigned h)

/-- R42: a write to a read-only address changes nothing. -/
theorem Bus.write_of_rom {b : Bus} {a : Word} (v : Byte) (h : b.map.backing a.toNat = .rom) : b.write a v = b :=
  Bus.write_dropped v (by simp [h])

/-- Settles O8. The instructions by their forms, the step by whether its opcode byte is assigned, the bus by what backs the
address. -/
theorem dispatchFaultIsTheOnlyStop : Obligations.DispatchFaultIsTheOnlyStop :=
  ⟨exec_completes, step_completes_or_dispatch_fault,
    fun _ _ v => ⟨fun h => ⟨Bus.read_of_null h, Bus.write_of_null v h⟩, Bus.write_of_rom v⟩⟩

end Sys2Proof.Machine
end

section
/-! PROOFS. The opcode map both ways (30_encoding.md rules R70 to R78): a row of the map together with the operand bytes it
takes is one instruction, and its encoding is that row's byte followed by those bytes. -/

namespace Sys2Proof

/-- The instruction a row's maker makes of its operand bytes: of none, of one, or of a word's two, low byte first (R71,
R73). -/
inductive Maker.Makes : Maker → List Byte → Instr → Prop
  | none (i : Instr) : Makes (.none i) [] i
  | byte (f : Byte → Instr) (b : Byte) : Makes (.byte f) [b] (f b)
  | word (f : Word → Instr) (w : Word) : Makes (.word f) [lowByte w, highByte w] (f w)

/-- R70, R71: an operand has at most two bytes. -/
theorem Maker.Makes.length_le {m : Maker} {operand : List Byte} {i : Instr} (h : m.Makes operand i) :
    operand.length ≤ 2 := by
  cases h <;> simp

/-- The encoder writes the row's opcode and then the row's operand bytes. -/
def OpRow.Encodes (r : OpRow) : Prop :=
  match r.make with
  | .none i => encode i = [r.opcode]
  | .byte f => ∀ b, encode (f b) = [r.opcode, b]
  | .word f => ∀ w, encode (f w) = [r.opcode, lowByte w, highByte w]

theorem OpRow.Encodes.encode_eq {r : OpRow} {operand : List Byte} {i : Instr} (h : r.Encodes)
    (hmake : r.make.Makes operand i) : encode i = r.opcode :: operand := by
  obtain ⟨op, make⟩ := r
  cases hmake with
  | none i => exact h
  | byte f b => exact h b
  | word f w => exact h w

/-- R74: every row of the map agrees with the encoder. -/
theorem opTable_encodes : ∀ r ∈ opTable, r.Encodes := by
  simp only [opTable, opRow0, opRow1, opRow2, opRow3, opRow4, opRow5, opRow6, opRow7, opRow8, opRow9, opRowA, opRowB,
    opRowC, opRowD, opRowE, opRowF, List.cons_append, List.nil_append, List.forall_mem_cons, List.not_mem_nil,
    false_implies, implies_true, and_true, OpRow.Encodes]
  and_intros <;> intros <;> rfl

/-- R74: every instruction stands in the map, under the first byte of its encoding. -/
theorem encode_in_opTable (i : Instr) :
    ∃ op operand r, encode i = op :: operand ∧ opLookup op = some r ∧ r.make.Makes operand i := by
  cases i <;> exact ⟨_, _, _, rfl, rfl, by constructor⟩

/-- The row found for a byte is that byte's, so what it makes is encoded with that byte first. -/
theorem encode_of_opLookup {op : Byte} {r : OpRow} {operand : List Byte} {i : Instr} (hrow : opLookup op = some r)
    (hmake : r.make.Makes operand i) : encode i = op :: operand := by
  have hop : r.opcode = op := by simpa using List.find?_some hrow
  rw [(opTable_encodes r (List.mem_of_find?_eq_some hrow)).encode_eq hmake, hop]

/-- R75: a row and the operand bytes it takes decode to what the row makes of them, whatever follows. -/
theorem decode_of_opLookup {op : Byte} {r : OpRow} {operand : List Byte} {i : Instr} (hrow : opLookup op = some r)
    (hmake : r.make.Makes operand i) (rest : List Byte) : decode (op :: operand ++ rest) = .ok (i, rest) := by
  obtain ⟨_, make⟩ := r
  cases hmake <;> simp [decode, hrow]

/-- All that the decoder can accept: a row's byte, the operand bytes the row takes, and a rest. -/
theorem decode_eq_ok {bs rest : List Byte} {i : Instr} (h : decode bs = .ok (i, rest)) :
    ∃ op operand r, bs = op :: operand ++ rest ∧ opLookup op = some r ∧ r.make.Makes operand i := by
  cases bs with
  | nil => cases h
  | cons op bs =>
    cases hrow : opLookup op with
    | none => simp [decode, hrow] at h
    | some r =>
      obtain ⟨opcode, make⟩ := r
      cases make with
      | none j =>
        simp only [decode, hrow] at h
        cases h
        exact ⟨op, [], _, rfl, hrow, .none _⟩
      | byte f =>
        match bs, h with
        | b :: bs, h =>
          simp only [decode, hrow] at h
          cases h
          exact ⟨op, [b], _, rfl, hrow, .byte f b⟩
        | [], h => simp [decode, hrow] at h
      | word f =>
        match bs, h with
        | lo :: hi :: bs, h =>
          simp only [decode, hrow] at h
          cases h
          exact ⟨op, [lo, hi], _, rfl, hrow, by simpa using Maker.Makes.word f (wordOf hi lo)⟩
        | [_], h => simp [decode, hrow] at h
        | [], h => simp [decode, hrow] at h

/-- Settles O1. An instruction's first byte selects its row, and the row takes the operand bytes that were written. -/
theorem decodeInvertsEncode : Obligations.DecodeInvertsEncode := by
  intro i rest
  obtain ⟨op, operand, r, hencode, hrow, hmake⟩ := encode_in_opTable i
  rw [hencode]
  exact decode_of_opLookup hrow hmake rest

/-- Settles O2. The bytes taken are a row's, and the encoder writes that row's bytes again. -/
theorem encodeInvertsDecode : Obligations.EncodeInvertsDecode := by
  intro bs rest i h
  obtain ⟨op, operand, r, hbs, hrow, hmake⟩ := decode_eq_ok h
  rw [hbs, encode_of_opLookup hrow hmake]

/-- R77: the bytes without a row are those the spec lists. -/
theorem opLookup_eq_none_iff (op : Byte) : opLookup op = none ↔ op ∈ unassignedBytes := by
  rw [← Option.isNone_iff_eq_none]
  revert op
  decide +kernel

theorem decode_eq_unassigned_iff (op : Byte) (rest : List Byte) :
    decode (op :: rest) = .error (.unassigned op) ↔ opLookup op = none := by
  refine ⟨fun h => ?_, fun h => decode_unassigned h rest⟩
  cases hrow : opLookup op with
  | none => rfl
  | some r =>
    simp only [decode, hrow] at h
    split at h <;> simp at h

/-- Settles O3. A byte is rejected by name exactly where the map has no row for it. -/
theorem unassignedBytesSpellNoInstruction : Obligations.UnassignedBytesSpellNoInstruction :=
  ⟨rfl, by decide +kernel, fun op rest => (decode_eq_unassigned_iff op rest).trans (opLookup_eq_none_iff op)⟩

/-- Settles O4, by running the decoder on the seven words. -/
theorem specWordsDecode : Obligations.SpecWordsDecode :=
  ⟨rfl, rfl, rfl, rfl, rfl, rfl, rfl⟩

/-- R70: an encoding has at most three bytes. -/
theorem encode_length_le (i : Instr) : (encode i).length ≤ 3 := by
  obtain ⟨op, operand, r, hencode, _, hmake⟩ := encode_in_opTable i
  have hoperand := hmake.length_le
  rw [hencode, List.length_cons]
  omega

/-- R71: the length the format gives is that of the encoding. -/
theorem encode_length (i : Instr) : (encode i).length = i.length := by
  cases i <;> rfl

end Sys2Proof

namespace Sys2Proof.Machine

/-- R70: the bytes a fetch reads, one by one. -/
theorem State.stream_getElem? (s : State) {k : Nat} (hk : k < 3) :
    s.stream[k]? = some (s.read (s.pc + BitVec.ofNat 16 k)) := by
  match k, hk with
  | 0, _ => simp [State.stream]
  | 1, _ => rfl
  | 2, _ => rfl

/-- Where an encoding is stored from PC on, the bytes a fetch reads begin with it. -/
theorem encode_prefix_stream {s : State} {i : Instr}
    (h : ∀ (k : Nat) (b : Byte), (encode i)[k]? = some b → s.read (s.pc + BitVec.ofNat 16 k) = b) :
    encode i <+: s.stream := by
  rw [List.prefix_iff_getElem?]
  intro k hk
  have hlen := encode_length_le i
  rw [s.stream_getElem? (by omega), h k _ (List.getElem?_eq_getElem hk)]

/-- Settles O5. The three bytes are those a fetch reads. -/
theorem stepRunsDecodedInstruction : Obligations.StepRunsDecodedInstruction := by
  intro s i rest hdecode t hexec
  rw [step_of_decode (s := s) hdecode, hexec, withTick_next]

/-- Settles O6. What a fetch reads is the encoding and a rest, which decodes to the instruction. -/
theorem stepRunsInstructionStoredAtPc : Obligations.StepRunsInstructionStoredAtPc := by
  intro s t i hstored hexec
  obtain ⟨rest, hstream⟩ := encode_prefix_stream hstored
  have hdecode : decode s.stream = .ok (i, rest) := by
    rw [← hstream]
    exact decodeInvertsEncode i rest
  exact stepRunsDecodedInstruction s i rest hdecode t hexec

/-- Settles O7. The map has a row for the byte or it has none. -/
theorem stepFaultsExactlyOnUnassignedByte : Obligations.StepFaultsExactlyOnUnassignedByte := by
  intro s
  refine ⟨fun h => step_of_unassigned ((opLookup_eq_none_iff _).mpr h), fun h => ?_⟩
  rw [← opLookup_eq_none_iff] at h
  obtain ⟨r, hrow⟩ := Option.ne_none_iff_exists'.mp h
  exact step_completes_of_assigned hrow

end Sys2Proof.Machine
end

section
/-! PROOFS. What every step keeps of the bus (20_memory.md rules R42, R43): an instruction leaves it as a list of writes
would (`exec_bus`), and the step then ticks it once. -/

namespace Sys2Proof.Machine

/-- R42, R43: an instruction keeps the memory map, the tick count, the order of the bus, and every byte that no RAM store
holds. -/
theorem exec_keeps_bus {i : Instr} {s t : State} (h : exec i s = .next t) :
    t.bus.map = s.bus.map ∧ t.bus.ticks = s.bus.ticks ∧ (s.bus.wf = true → t.bus.wf = true) ∧
      ∀ k : Word, s.bus.map.backing k.toNat ≠ .ram → t.bus.read k = s.bus.read k := by
  obtain ⟨writes, hbus⟩ := exec_bus h
  rw [hbus]
  exact writes_keep writes s.bus

/-- Settles O9. The instruction's writes issue no tick, and the step adds the one. -/
theorem stepIssuesOneBusTick : Obligations.StepIssuesOneBusTick := by
  have hexec_ticks {i : Instr} {s t : State} (h : exec i s = .next t) : t.bus.ticks = s.bus.ticks := by
    obtain ⟨_, hticks, _⟩ := exec_keeps_bus h
    exact hticks
  refine ⟨fun _ _ _ => hexec_ticks, fun s t h => ?_⟩
  obtain ⟨i, _, u, _, hexec, rfl⟩ := step_next h
  rw [Bus.tick_ticks, hexec_ticks hexec]

/-- Settles O10. Writes keep the bus in order, and so does the tick. -/
theorem stepKeepsBusInOrder : Obligations.StepKeepsBusInOrder := by
  intro s t hs h
  obtain ⟨i, _, u, _, hexec, rfl⟩ := step_next h
  obtain ⟨_, _, hwf, _⟩ := exec_keeps_bus hexec
  rw [State.wf, Bus.wf_tick]
  exact hwf hs

/-- Settles O11, by computing the check. -/
theorem resetBusInOrder : Obligations.ResetBusInOrder := by
  unfold Obligations.ResetBusInOrder
  decide

/-- Settles O12. -/
theorem stepKeepsMapAndReadOnlyBytes : Obligations.StepKeepsMapAndReadOnlyBytes := by
  intro s t h
  obtain ⟨i, _, u, _, hexec, rfl⟩ := step_next h
  obtain ⟨hmap, _, _, hread⟩ := exec_keeps_bus hexec
  refine ⟨(Bus.tick_map u.bus).trans hmap, fun k hk => ?_⟩
  rw [State.read_eq, Bus.read_tick]
  exact hread k hk

end Sys2Proof.Machine
end

section
/-! PROOFS. Memory (20_memory.md sections 1 and 2): what a write does to every read, and that a canonical memory is
determined by what it reads as. -/

namespace Sys2Proof.Machine

/-- Settles O13. The written address reads the byte where a RAM store answers; otherwise the write is dropped. -/
theorem readReturnsLatestWrite : Obligations.ReadReturnsLatestWrite := by
  intro b a k v hb
  by_cases hram : b.map.backing a.toNat = .ram
  · by_cases hk : k = a
    · subst hk
      rw [if_pos ⟨rfl, hram⟩, Bus.read_write_same v (Bus.wf_cells hb) hram]
    · rw [if_neg fun h => hk h.1, Bus.read_write_ne b v hk]
  · rw [if_neg fun h => hram h.2, Bus.write_dropped v hram]

theorem Memory.get_cons_same (a : Nat) (v : Byte) (m : Memory) : Memory.get ((a, v) :: m) a = v := by
  simp [Memory.get]

theorem Memory.get_cons_ne {a k : Nat} (v : Byte) (m : Memory) (h : k ≠ a) :
    Memory.get ((a, v) :: m) k = Memory.get m k := by
  simp [Memory.get, h.symm]

/-- At the first address of a canonical memory a byte is held, so another canonical memory that reads alike does not
start above it. -/
theorem Memory.first_le_of_get_eq {lo lo' a b : Nat} {v w : Byte} {m n : Memory}
    (hm : Memory.risesFrom lo ((a, v) :: m) = true) (hn : Memory.risesFrom lo' ((b, w) :: n) = true)
    (h : ∀ k, Memory.get ((a, v) :: m) k = Memory.get ((b, w) :: n) k) : b ≤ a := by
  by_contra hlt
  obtain ⟨_, _, hheld, _⟩ := Memory.risesFrom_cons.mp hm
  obtain ⟨_, hrest⟩ := Memory.risesFrom_cons.mp hn
  have hbelow : Memory.get ((b, w) :: n) a = blankByte :=
    Memory.get_below (Memory.risesFrom_cons.mpr ⟨le_refl b, hrest⟩) (by omega)
  rw [← h a, Memory.get_cons_same] at hbelow
  exact hheld hbelow

/-- A rising list that reads blank everywhere is empty. -/
theorem Memory.eq_nil_of_get_blank {lo : Nat} {m : Memory} (hm : Memory.risesFrom lo m = true)
    (h : ∀ k, Memory.get m k = blankByte) : m = [] := by
  cases m with
  | nil => rfl
  | cons c m =>
    obtain ⟨a, v⟩ := c
    obtain ⟨_, _, hheld, _⟩ := Memory.risesFrom_cons.mp hm
    have hv := h a
    rw [Memory.get_cons_same] at hv
    exact absurd hv hheld

/-- Rising lists that read alike are equal, from whatever addresses they rise. -/
theorem Memory.eq_of_get_eq {lo lo' : Nat} {m n : Memory} (hm : Memory.risesFrom lo m = true)
    (hn : Memory.risesFrom lo' n = true) (h : ∀ k, Memory.get m k = Memory.get n k) : m = n := by
  induction m generalizing lo lo' n with
  | nil => exact (Memory.eq_nil_of_get_blank hn fun k => (h k).symm).symm
  | cons c m ih =>
    obtain ⟨a, v⟩ := c
    cases n with
    | nil => exact Memory.eq_nil_of_get_blank hm h
    | cons d n =>
      obtain ⟨b, w⟩ := d
      have hab : a = b :=
        Nat.le_antisymm (Memory.first_le_of_get_eq hn hm fun k => (h k).symm) (Memory.first_le_of_get_eq hm hn h)
      subst hab
      have hvw := h a
      rw [Memory.get_cons_same, Memory.get_cons_same] at hvw
      obtain ⟨_, _, _, hmrest⟩ := Memory.risesFrom_cons.mp hm
      obtain ⟨_, _, _, hnrest⟩ := Memory.risesFrom_cons.mp hn
      have htail : m = n := ih hmrest hnrest fun k => by
        by_cases hk : k = a
        · rw [Memory.get_below hmrest (by omega), Memory.get_below hnrest (by omega)]
        · rw [← Memory.get_cons_ne v m hk, h k, Memory.get_cons_ne w n hk]
      rw [hvw, htail]

/-- Settles O14. -/
theorem canonicalMemoriesThatReadAlikeAreEqual : Obligations.CanonicalMemoriesThatReadAlikeAreEqual :=
  fun _ _ hm hn h => Memory.eq_of_get_eq hm hn h

end Sys2Proof.Machine
end

section
/-! PROOFS. The router (20_memory.md rules R55, R56; decision D22). An entry is asked where its start qualifies; attaching
one more entry either takes the access over or leaves it to the router as it was. -/

namespace Sys2Proof.Machine

/-- The access at `a`, taken by the entry `e` (R56). -/
def entrySlot (e : Word × Store) (a : Nat) : Slot := Slot.within e.1.toNat a (e.2.locate (a - e.1.toNat))

@[simp] theorem entrySlot_start (e : Word × Store) (a : Nat) : (entrySlot e a).start = e.1.toNat := by
  unfold entrySlot Slot.within
  split <;> rfl

/-- All that attaching one more entry can do to an access: the entry takes it, where its start qualifies and the router's own
entry starts no later; or the access stays with the router, whose entry starts later if the new start qualifies. -/
theorem Store.locate_attach (router child : Store) (start : Word) (a : Nat) :
    ((Store.attach router start child).locate a = some (entrySlot (start, child) a) ∧ start.toNat ≤ a ∧
      ∀ sl, router.locate a = some sl → sl.start ≤ start.toNat) ∨
    ((Store.attach router start child).locate a = router.locate a ∧
      (start.toNat ≤ a → ∃ sl, router.locate a = some sl ∧ start.toNat < sl.start)) := by
  cases hr : router.locate a with
  | none =>
    by_cases ha : start.toNat ≤ a
    · exact .inl (by simp [Store.locate, hr, ha, entrySlot])
    · exact .inr (by simp [Store.locate, hr, ha])
  | some sl =>
    by_cases ha : start.toNat ≤ a ∧ sl.start ≤ start.toNat
    · exact .inl (by simp [Store.locate, hr, ha, entrySlot])
    · refine .inr ⟨by simp [Store.locate, hr, ha], fun hstart => ⟨sl, rfl, ?_⟩⟩
      omega

/-- An access that a router takes is taken by one of its entries, whose start qualifies. -/
theorem Store.locate_mem_entries {r : Store} {a : Nat} {sl : Slot} (hrouter : r.isRouter = true)
    (h : r.locate a = some sl) : ∃ e ∈ r.entries, e.1.toNat ≤ a ∧ sl = entrySlot e a := by
  induction r with
  | leaf k => cases hrouter
  | empty => cases h
  | attach router start child ih _ =>
    rcases Store.locate_attach router child start a with ⟨heq, hstart, _⟩ | ⟨heq, _⟩
    · rw [heq] at h
      exact ⟨(start, child), by simp [Store.entries], hstart, (Option.some.inj h).symm⟩
    · rw [heq] at h
      obtain ⟨e, he, hsl⟩ := ih hrouter h
      exact ⟨e, by simp [Store.entries, he], hsl⟩

/-- R56: the entry with the greatest qualifying start takes the access, the later attached of equals. -/
theorem Store.locate_of_greatest {r : Store} {a : Nat} {before after : List (Word × Store)} {e : Word × Store}
    (hrouter : r.isRouter = true) (hentries : r.entries = before ++ e :: after) (he : e.1.toNat ≤ a)
    (hbefore : ∀ f ∈ before, f.1.toNat ≤ a → f.1.toNat ≤ e.1.toNat)
    (hafter : ∀ f ∈ after, f.1.toNat ≤ a → f.1.toNat < e.1.toNat) : r.locate a = some (entrySlot e a) := by
  induction r generalizing after with
  | leaf k => cases hrouter
  | empty => simp [Store.entries] at hentries
  | attach router start child ih _ =>
    rw [Store.entries] at hentries
    rcases List.eq_nil_or_concat after with rfl | ⟨after, last, rfl⟩
    · obtain ⟨hrest, hlast⟩ := List.append_inj' hentries rfl
      obtain rfl : (start, child) = e := List.head_eq_of_cons_eq hlast
      rcases Store.locate_attach router child start a with ⟨heq, _⟩ | ⟨_, hlater⟩
      · exact heq
      · obtain ⟨sl, hsl, hlt⟩ := hlater he
        obtain ⟨f, hf, hfa, rfl⟩ := Store.locate_mem_entries (r := router) hrouter hsl
        rw [entrySlot_start] at hlt
        have hle : f.1.toNat ≤ start.toNat := hbefore f (hrest ▸ hf) hfa
        omega
    · rw [List.concat_eq_append, ← List.cons_append, ← List.append_assoc] at hentries
      obtain ⟨hrest, hlast⟩ := List.append_inj' hentries rfl
      obtain rfl : (start, child) = last := List.head_eq_of_cons_eq hlast
      have hrouter_locate : router.locate a = some (entrySlot e a) :=
        ih hrouter hrest fun f hf => hafter f (by simp [hf])
      rcases Store.locate_attach router child start a with ⟨_, hstart, hle⟩ | ⟨heq, _⟩
      · have hge := hle _ hrouter_locate
        have hlt : start.toNat < e.1.toNat := hafter (start, child) (by simp) hstart
        rw [entrySlot_start] at hge
        omega
      · rw [heq, hrouter_locate]

/-- R56: where no entry qualifies the address is unmapped. -/
theorem Store.locate_of_none_qualifies {r : Store} {a : Nat} (hrouter : r.isRouter = true)
    (h : ∀ e ∈ r.entries, a < e.1.toNat) : r.locate a = none := by
  cases hr : r.locate a with
  | none => rfl
  | some sl =>
    obtain ⟨e, he, hea, _⟩ := Store.locate_mem_entries hrouter hr
    exact absurd (h e he) (by omega)

/-- Settles O17. -/
theorem routerSelectsGreatestStart : Obligations.RouterSelectsGreatestStart := by
  intro r a hrouter
  refine ⟨fun before after e hentries he hbefore hafter =>
    Store.locate_of_greatest hrouter hentries he hbefore hafter, fun h => ?_⟩
  have hnone := Store.locate_of_none_qualifies hrouter h
  exact ⟨hnone, by simp [Store.backing, hnone]⟩

/-- The starts from `lo` on ascend. -/
def ascendsFrom (lo : Nat) (entries : List (Word × Store)) : Prop :=
  (∀ e ∈ entries, lo ≤ e.1.toNat) ∧ entries.Pairwise fun e f => e.1.toNat ≤ f.1.toNat

theorem ascendsFrom_cons {lo : Nat} {e : Word × Store} {entries : List (Word × Store)} :
    ascendsFrom lo (e :: entries) ↔ lo ≤ e.1.toNat ∧ ascendsFrom e.1.toNat entries := by
  simp only [ascendsFrom, List.forall_mem_cons, List.pairwise_cons]
  constructor
  · rintro ⟨⟨hlo, _⟩, hstart, hpair⟩
    exact ⟨hlo, hstart, hpair⟩
  · rintro ⟨hlo, hstart, hpair⟩
    exact ⟨⟨hlo, fun f hf => hlo.trans (hstart f hf)⟩, hstart, hpair⟩

/-- R56, D22: attaching to a router succeeds where the starts ascend from its last one, and adds the entries in order. -/
theorem attachAll_of_ascends {router : Store} {entries : List (Word × Store)} (hrouter : router.isRouter = true)
    (h : ascendsFrom router.lastStart entries) :
    ∃ r, attachAll router entries = .next r ∧ r.isRouter = true ∧ r.entries = router.entries ++ entries := by
  induction entries generalizing router with
  | nil => exact ⟨router, rfl, hrouter, (List.append_nil _).symm⟩
  | cons e entries ih =>
    obtain ⟨start, child⟩ := e
    obtain ⟨hlast, hrest⟩ := ascendsFrom_cons.mp h
    obtain ⟨r, hr, hisRouter, hentries⟩ := ih (router := .attach router start child) hrouter hrest
    refine ⟨r, ?_, hisRouter, ?_⟩
    · rw [attachAll, if_pos hlast, hr]
    · rw [hentries, Store.entries, List.append_assoc, List.singleton_append]

/-- R56, D22: otherwise it is refused by name. -/
theorem attachAll_of_not_ascends {router : Store} {entries : List (Word × Store)}
    (h : ¬ ascendsFrom router.lastStart entries) : attachAll router entries = .refused .attachOrder := by
  induction entries generalizing router with
  | nil => exact absurd ⟨by simp, .nil⟩ h
  | cons e entries ih =>
    obtain ⟨start, child⟩ := e
    rw [ascendsFrom_cons] at h
    by_cases hlast : router.lastStart ≤ start.toNat
    · rw [attachAll, if_pos hlast]
      exact ih fun hrest => h ⟨hlast, hrest⟩
    · rw [attachAll, if_neg hlast]

/-- Settles O18. The empty router's last start is 0, so the entries' own order decides. -/
theorem routerIsBuiltExactlyInAscendingOrder : Obligations.RouterIsBuiltExactlyInAscendingOrder :=
  fun _ =>
    ⟨fun h => attachAll_of_ascends (router := .empty) rfl ⟨fun _ _ => Nat.zero_le _, h⟩,
      fun h => attachAll_of_not_ascends fun hascends => h hascends.2⟩

end Sys2Proof.Machine
end

section
/-! PROOFS. The indirect modes, operands and targets (40_addressing_modes.md), the status byte (10_state.md rules R20, R21) and
the Overflow of an addition (41_alu.md rule R125). -/

namespace Sys2Proof.Machine

/-- A zero-page address made from a number is that number modulo 256. -/
theorem zext16_eq_ofNat {v : Byte} {n : Nat} (h : v.toNat = n % 256) : zext16 v = BitVec.ofNat 16 (n % 256) := by
  apply BitVec.eq_of_toNat_eq
  rw [zext16_toNat, BitVec.toNat_ofNat, h]
  omega

/-- R49: both bytes of a zero-page word come from the zero page, the low one first. -/
theorem State.readWordZp_toNat (s : State) {zp : Byte} {n : Nat} (h : zp.toNat = n % 256) :
    (s.readWordZp zp).toNat =
      (s.read (BitVec.ofNat 16 (n % 256))).toNat + 256 * (s.read (BitVec.ofNat 16 ((n + 1) % 256))).toNat := by
  have hnext : (zp + 1).toNat = (n + 1) % 256 := by
    rw [BitVec.toNat_add, h]
    exact (Nat.mod_add_mod n 256 1)
  rw [State.readWordZp, wordOf_toNat, zext16_eq_ofNat h, zext16_eq_ofNat hnext]
  omega

/-- Settles O20. For indx the index is added to the pointer's address, for indy to the pointer. -/
theorem indirectModesDereferenceZeroPagePointers : Obligations.IndirectModesDereferenceZeroPagePointers := by
  intro b s pointer
  refine ⟨⟨s.readWordZp_toNat (BitVec.toNat_add b s.x), rfl⟩, ?_, rfl⟩
  rw [effAddr, add_zext16_toNat, s.readWordZp_toNat (Nat.mod_eq_of_lt b.isLt).symm]

/-- Settles O21. Each operand form computes. -/
theorem operandsAndTargetsResolve : Obligations.OperandsAndTargetsResolve :=
  fun _ _ _ => ⟨rfl, rfl, rfl, rfl, rfl, rfl, rfl, rfl⟩

/-- R20: the places of the flags in the status byte, bit 5 read as 1. -/
theorem Status.toByte_toNat (p : Status) :
    p.toByte.toNat = 128 * flagBit p.n + 64 * flagBit p.v + 32 + 16 * flagBit p.b + 8 * flagBit p.d + 4 * flagBit p.i +
      2 * flagBit p.z + flagBit p.c := by
  obtain ⟨c, z, i, d, b, v, n⟩ := p
  revert c z i d b v n
  decide

/-- Settles O22. A bit of a byte is that bit of its number. -/
theorem statusByteLayout : Obligations.StatusByteLayout :=
  ⟨Status.toByte_toNat, fun _ => rfl⟩

/-- Settles O25. The nine-bit sum's Overflow compares signs, which is the signed sum's range. -/
theorem aluAddOverflowIsSignedOverflow : Obligations.AluAddOverflowIsSignedOverflow := by
  intro s v
  rw [aluAddIsNineBitSum s v]
  exact decide_eq_true_iff.trans (signs_differ_iff_signed_overflow s.a v s.p.c)

end Sys2Proof.Machine
end

section
/-! PROOFS. The whole next state of the instructions that read an operand, store, shift, count or move a register
(42_load_store_transfer.md to 47_inc_dec.md). Each mnemonic's shared operation is written out once its PC and its flags are
those of the statements. -/

namespace Sys2Proof.Machine

theorem pcPast_eq (s : State) (n : Nat) : pcPast s n = s.pc + BitVec.ofNat 16 n := by
  rw [pcPast, BitVec.ofNat_add, BitVec.ofNat_toNat, BitVec.setWidth_eq]

/-- R18: PC moved past an instruction, as the statements write it. -/
theorem State.past_eq (s : State) (n : Nat) : s.past n = { s with pc := pcPast s n } := by
  rw [State.past, pcPast_eq]

theorem byte_eq_ofNat {v : Byte} {n : Nat} (h : v.toNat = n) : v = BitVec.ofNat 8 n := by
  rw [← h, BitVec.ofNat_toNat, BitVec.setWidth_eq]

/-- Settles O30. -/
theorem loadsPutOperandInRegister : Obligations.LoadsPutOperandInRegister := by
  intro i o s v t
  refine ⟨fun h => ?_, fun h => ?_, fun h => ?_⟩
  · rw [exec_of_form h, runForm, lda, State.setNZ_eq, State.past_eq]
  · rw [exec_of_form h, runForm, ldx, State.setNZ_eq, State.past_eq]
  · rw [exec_of_form h, runForm, ldy, State.setNZ_eq, State.past_eq]

/-- Settles O31. -/
theorem storesWriteRegisterToAddress : Obligations.StoresWriteRegisterToAddress := by
  intro i m s put
  refine ⟨fun h => ?_, fun h => ?_, fun h => ?_⟩
  · rw [exec_of_form h, runForm, sta, State.past_eq, State.write]
  · rw [exec_of_form h, runForm, stx, State.past_eq, State.write]
  · rw [exec_of_form h, runForm, sty, State.past_eq, State.write]

/-- Settles O32. -/
theorem transfersCopyRegisters : Obligations.TransfersCopyRegisters := by
  intro s t
  simp only [exec_eq_run, Instr.form, runForm, execTax, execTay, execTxa, execTya, execTsx, execTxs, State.setNZ_eq,
    State.past_eq, t, and_self]

/-- Settles O33. -/
theorem stackInstructionsPushAndPull : Obligations.StackInstructionsPushAndPull := by
  intro s pulled pushed
  simp only [exec_eq_run, Instr.form, runForm, execPha, execPhp, execPla, execPlp, State.setNZ_eq, State.past_eq,
    State.push, State.write, State.afterPull, State.pulledByte, pulled, pushed, and_self]

/-- R160: a shift left doubles the value and takes bit 7 out. -/
theorem aslBits_eq (old : Byte) : aslBits old = (BitVec.ofNat 8 (2 * old.toNat), decide (128 ≤ old.toNat)) := by
  rw [aslBits, bit7_eq_decide]
  rfl

/-- R161: a shift right halves the value and takes bit 0 out. -/
theorem lsrBits_eq (old : Byte) : lsrBits old = (BitVec.ofNat 8 (old.toNat / 2), decide (old.toNat % 2 = 1)) := by
  revert old
  decide

/-- R162: a rotation left is a shift left that takes the old Carry in at bit 0. -/
theorem rolBits_eq (old : Byte) (c : Bool) :
    rolBits old c = (BitVec.ofNat 8 (2 * old.toNat + flagBit c), decide (128 ≤ old.toNat)) := by
  revert old c
  decide

/-- R163: a rotation right is a shift right that takes the old Carry in at bit 7. -/
theorem rorBits_eq (old : Byte) (c : Bool) :
    rorBits old c = (BitVec.ofNat 8 (old.toNat / 2 + 128 * flagBit c), decide (old.toNat % 2 = 1)) := by
  revert old c
  decide

/-- The write to a target and `SetNZ` touch different parts of the state. -/
theorem targetWrite_setNZ (t : Target) (v w : Byte) (s : State) :
    (targetWrite t v s).setNZ w = targetWrite t v (s.setNZ w) := by
  cases t with
  | acc => rfl
  | mem m =>
    have haddr : effAddr m (s.setNZ w) = effAddr m s := effAddr_congr rfl rfl rfl m
    rw [targetWrite_mem, targetWrite_mem, haddr]
    rfl

/-- The common frame of the shifts, as the statements write it. -/
theorem shift_eq {bits : Byte → Byte × Bool} {t : Target} {s : State} {v : Byte} {out : Bool}
    (h : bits (targetValue t s) = (v, out)) :
    shift bits t s = .next (targetWrite t v { s with pc := pcPast s t.length, p := { nzOf s.p v with c := out } }) := by
  simp only [shift, h, targetWrite_setNZ]
  rw [State.setNZ_eq, State.past_eq]
  rfl

/-- Settles O34. -/
theorem shiftsMoveOneBitThroughCarry : Obligations.ShiftsMoveOneBitThroughCarry := by
  intro i t s old put
  refine ⟨fun h => ?_, fun h => ?_, fun h => ?_, fun h => ?_⟩
  · rw [exec_of_form h, runForm, asl, shift_eq (aslBits_eq _)]
  · rw [exec_of_form h, runForm, lsr, shift_eq (lsrBits_eq _)]
  · rw [exec_of_form h, runForm, rol, shift_eq (rolBits_eq _ _)]
  · rw [exec_of_form h, runForm, ror, shift_eq (rorBits_eq _ _)]

theorem byte_add_one (v : Byte) : v + 1 = BitVec.ofNat 8 ((v.toNat + 1) % 256) :=
  byte_eq_ofNat (BitVec.toNat_add v 1)

theorem byte_sub_one (v : Byte) : v - 1 = BitVec.ofNat 8 ((v.toNat + 255) % 256) := by
  rw [byte_ofNat_mod]
  exact byte_sub_eq_ofNat v 1

theorem modifyByte_eq (f : Byte → Byte) (m : AddrMode) (s : State) :
    let new := f (s.read (effAddr m s))
    modifyByte f m s =
      .next { s with pc := pcPast s m.length, p := nzOf s.p new, bus := s.bus.write (effAddr m s) new } := by
  simp only [modifyByte, State.setNZ_eq, State.past_eq, State.write]

/-- Settles O35. -/
theorem incrementsAndDecrementsWrap : Obligations.IncrementsAndDecrementsWrap := by
  intro s up down t
  refine ⟨fun i m => ⟨fun h => ?_, fun h => ?_⟩, ?_, ?_, ?_, ?_⟩
  · rw [exec_of_form h, runForm, inc, modifyByte_eq, byte_add_one]
  · rw [exec_of_form h, runForm, dec, modifyByte_eq, byte_sub_one]
  · rw [exec_eq_run, Instr.form, runForm, execInx, State.setNZ_eq, State.past_eq, byte_add_one]
  · rw [exec_eq_run, Instr.form, runForm, execIny, State.setNZ_eq, State.past_eq, byte_add_one]
  · rw [exec_eq_run, Instr.form, runForm, execDex, State.setNZ_eq, State.past_eq, byte_sub_one]
  · rw [exec_eq_run, Instr.form, runForm, execDey, State.setNZ_eq, State.past_eq, byte_sub_one]

theorem logic_eq (o : Operand) (s : State) {r : Byte} {n : Nat} (h : r.toNat = n) :
    logic o r s =
      .next { s with pc := pcPast s o.length, a := BitVec.ofNat 8 n, p := nzOf s.p (BitVec.ofNat 8 n) } := by
  rw [logic, State.setNZ_eq, State.past_eq, ← byte_eq_ofNat h]

/-- Settles O36. -/
theorem logicCombinesWithAccumulator : Obligations.LogicCombinesWithAccumulator := by
  intro i o s v put
  refine ⟨fun h => ?_, fun h => ?_, fun h => ?_⟩
  · rw [exec_of_form h, runForm, andWith, logic_eq o s (BitVec.toNat_and ..)]
  · rw [exec_of_form h, runForm, oraWith, logic_eq o s (BitVec.toNat_or ..)]
  · rw [exec_of_form h, runForm, eorWith, logic_eq o s (BitVec.toNat_xor ..)]

/-- R173: that A and an operand share no bit is a fact about their numbers. -/
theorem byte_and_eq_zero (a v : Byte) : ((a &&& v) == 0) = decide (a.toNat &&& v.toNat = 0) := by
  rw [beq_eq_decide, decide_eq_decide, ← BitVec.toNat_and]
  exact ⟨fun h => congrArg BitVec.toNat h, fun h => BitVec.eq_of_toNat_eq h⟩

/-- Settles O37. -/
theorem bitTestsOperandAgainstAccumulator : Obligations.BitTestsOperandAgainstAccumulator := by
  intro i o s h v
  rw [exec_of_form h, runForm, bitTest, State.past_eq, byte_and_eq_zero]
  rfl

/-- Settles O38. -/
theorem arithmeticDelegatesToTheAlu : Obligations.ArithmeticDelegatesToTheAlu := by
  intro i o s v t
  refine ⟨fun h => ?_, fun h => ?_, fun h => ?_, fun h => ?_, fun h => ?_⟩
  · rw [exec_of_form h, runForm, adc, State.past_eq]
  · rw [exec_of_form h, runForm, sbc, State.past_eq]
  · rw [exec_of_form h, runForm, cmpWith, State.past_eq]
  · rw [exec_of_form h, runForm, cpx, State.past_eq]
  · rw [exec_of_form h, runForm, cpy, State.past_eq]

end Sys2Proof.Machine
end

section
/-! PROOFS. The whole next state of jumps, calls, branches, the flag instructions, BRK and RTI (48_control_transfer.md,
49_system_flags_nop.md), and of the host's moves (60_exceptions.md, 70_reset_and_hazards.md). -/

namespace Sys2Proof.Machine

/-- Two states with the same seven fields are one state. -/
theorem State.eq_of_fields {s t : State} (ha : s.a = t.a) (hx : s.x = t.x) (hy : s.y = t.y) (hsp : s.sp = t.sp)
    (hpc : s.pc = t.pc) (hp : s.p = t.p) (hbus : s.bus = t.bus) : s = t := by
  cases s
  cases t
  congr

theorem lowByte_eq_ff_iff (w : Word) : lowByte w = 0xFF ↔ w.toNat % 256 = 255 := by
  rw [← BitVec.toNat_inj, lowByte_toNat]
  rfl

/-- The start of the page of an address that ends it. -/
theorem page_start_of_ff {w : Word} (h : w.toNat % 256 = 255) : wordOf (highByte w) 0x00 = w - 255 := by
  apply BitVec.eq_of_toNat_eq
  have hw := w.isLt
  have hsub : (w - 255).toNat = (65536 - 255 + w.toNat) % 65536 := BitVec.toNat_sub w 255
  rw [hsub, wordOf_toNat, highByte_toNat]
  change w.toNat / 256 * 256 + 0 = _
  omega

/-- R112, for either value of the open parameter. -/
theorem jumpTarget_eq (pageWrap : Bool) (w : Word) (s : State) :
    jumpTarget pageWrap w s =
      if w.toNat % 256 = 255 ∧ pageWrap = true then wordOf (s.read (w - 255)) (s.read w)
      else wordOf (s.read (w + 1)) (s.read w) := by
  simp only [jumpTarget, Bool.and_eq_true, beq_iff_eq, lowByte_eq_ff_iff]
  split
  · rename_i h
    rw [page_start_of_ff h.1]
  · rfl

/-- Settles O39. -/
theorem jumpsLoadThePc : Obligations.JumpsLoadThePc :=
  fun w s => ⟨rfl, rfl, fun pageWrap => jumpTarget_eq pageWrap w s⟩

/-- R201: JSR's return address is that of its own last byte. -/
theorem pcPast_three_sub_one (s : State) : pcPast s 3 - 1 = pcPast s 2 := by
  rw [pcPast_eq, pcPast_eq]
  bv_omega

/-- Settles O40. -/
theorem subroutineCallAndReturn : Obligations.SubroutineCallAndReturn := by
  intro w s ret
  have hsp : s.sp - 1 - 1 = s.sp - 2 := by bv_omega
  have hsp' : s.sp + 1 + 1 = s.sp + 2 := by bv_omega
  refine ⟨congrArg Host.Outcome.next ?_, congrArg Host.Outcome.next ?_⟩
  · simp only [State.past_eq, State.pushWord, State.push, State.write, pcPast_three_sub_one, hsp, ret]
  · simp only [State.afterPull, State.pulledWord, State.pulledByte, State.read, hsp']

/-- R203: the displacement added to the PC past the branch, as a signed sum. -/
theorem pcPast_add_sext16 (s : State) (d : Byte) :
    pcPast s 2 + sext16 d = BitVec.ofInt 16 (s.pc.toNat + 2 + d.toInt) := by
  rw [BitVec.ofInt_add, pcPast]
  rfl

theorem branch_eq (cond : Bool) (d : Byte) (s : State) :
    branch cond d s =
      .next { s with pc := if cond then BitVec.ofInt 16 (s.pc.toNat + 2 + d.toInt) else pcPast s 2 } := by
  rw [← pcPast_add_sext16]
  cases cond <;> simp [branch, State.past_eq]

/-- The eight branches: each mnemonic runs `branch` under its condition. -/
theorem runForm_branch (op : BranchOp) (d : Byte) (s : State) :
    runForm (.branch op d) s = .next { s with
      pc := if branchTaken op s.p then BitVec.ofInt 16 (s.pc.toNat + 2 + d.toInt) else pcPast s 2 } := by
  cases op <;> exact branch_eq _ d s

/-- Settles O41. -/
theorem branchesAddDisplacementWhenTaken : Obligations.BranchesAddDisplacementWhenTaken := by
  intro i op d s h
  rw [exec_of_form h, runForm_branch]

/-- Settles O42. -/
theorem flagInstructionsWriteOneFlag : Obligations.FlagInstructionsWriteOneFlag := by
  intro s t
  simp only [exec_eq_run, Instr.form, runForm, execClc, execCld, execCli, execClv, execSec, execSed, execSei,
    State.past_eq, t, and_self]

/-- Settles O43. -/
theorem nopOnlyAdvancesPc : Obligations.NopOnlyAdvancesPc := by
  intro s
  rw [exec_eq_run, Instr.form, runForm, execNop, State.past_eq]

/-- R243: the whole state after an interrupt entry. -/
theorem State.interruptEntry_eq (s : State) (sw : Bool) :
    let p := { s.p with b := sw }
    let bus := ((s.bus.write (stackAddr s.sp) (highByte s.pc)).write (stackAddr (s.sp - 1)) (lowByte s.pc)).write
      (stackAddr (s.sp - 2)) p.toByte
    s.interruptEntry sw = { s with
      sp := s.sp - 3
      p := { p with i := true }
      bus := bus
      pc := wordOf (bus.read 0xFFFF) (bus.read 0xFFFE) } := by
  intro p bus
  have hslot : s.sp - 1 - 1 = s.sp - 2 := by bv_omega
  have hsp : s.sp - 1 - 1 - 1 = s.sp - 3 := by bv_omega
  have hbus : (s.interruptEntry sw).bus = bus := by rw [State.interruptEntry_bus, hslot]
  have hpc : (s.interruptEntry sw).pc = wordOf (bus.read 0xFFFF) (bus.read 0xFFFE) := by
    rw [State.interruptEntry_pc, State.read_eq, State.read_eq, hbus]
  exact State.eq_of_fields (s.interruptEntry_a sw) (s.interruptEntry_x sw) (s.interruptEntry_y sw)
    ((s.interruptEntry_sp sw).trans hsp) hpc (s.interruptEntry_p sw) hbus

/-- R221: the whole state after a return from an interrupt. -/
theorem State.interruptReturn_eq (s : State) :
    s.interruptReturn = { s with
      sp := s.sp + 3
      p := Status.ofByte (s.read (stackAddr (s.sp + 1)))
      pc := wordOf (s.read (stackAddr (s.sp + 3))) (s.read (stackAddr (s.sp + 2))) } := by
  have hslot : s.sp + 1 + 1 = s.sp + 2 := by bv_omega
  have hsp : s.sp + 1 + 1 + 1 = s.sp + 3 := by bv_omega
  have hpc := s.interruptReturn_pc
  rw [hsp, hslot] at hpc
  exact State.eq_of_fields s.interruptReturn_a s.interruptReturn_x s.interruptReturn_y
    (s.interruptReturn_sp.trans hsp) hpc s.interruptReturn_p s.interruptReturn_bus

/-- Settles O44. BRK is the interrupt entry from the PC past its signature byte. -/
theorem breakEntersAndRtiReturns : Obligations.BreakEntersAndRtiReturns := by
  intro s ret p bus
  refine ⟨?_, ?_⟩
  · rw [exec_brk, State.past_eq, State.interruptEntry_eq]
  · rw [exec_rti, State.interruptReturn_eq]

/-- Settles O57. -/
theorem interruptRequestIsGatedByI : Obligations.InterruptRequestIsGatedByI := by
  intro s p bus
  refine ⟨fun hmasked => ?_, fun hclear => ?_⟩
  · rw [State.interruptRequest, if_neg (by simp [hmasked])]
  · rw [State.interruptRequest, if_pos hclear, State.interruptEntry_eq]

/-- R44: a bus reset clears the tick count and nothing else. -/
theorem Bus.reset_eq (b : Bus) : b.reset = { b with ticks := 0 } := by
  simp [Bus.reset]

/-- Settles O59. The vector is read from the bus after its reset, which reads as before. -/
theorem resetLoadsPcFromTheVector : Obligations.ResetLoadsPcFromTheVector := by
  intro spReset b
  have hread (a : Word) : b.reset.read a = b.read a := Bus.read_reset b a
  rw [← Bus.reset_eq]
  simp only [resetState, State.readWord, State.read, hread]
  rfl

/-- Settles O60. -/
theorem sessionStartsWithReset : Obligations.SessionStartsWithReset := by
  refine ⟨fun b => ⟨rfl, rfl, _, rfl⟩, fun s s' h => ?_, fun s t h => ?_, fun s f h => ?_⟩
  · simp only [Session.move, Session.bus, h]
  · simp only [Session.move, h]
  · simp only [Session.move, h]

end Sys2Proof.Machine
end

section
/-! PROOFS. Frames: which bytes, registers and flags each form can change, said once for all forms, and the statements about
frames and writers read off from it (10_state.md rules R13 to R16 and R23). -/

namespace Sys2Proof.Machine

/-- The addresses a form stores to, in order. -/
def storedAt (s : State) : Form → List Word
  | .store _ m | .rmw _ (.mem m) => [effAddr m s]
  | .call _ => [stackAddr s.sp, stackAddr (s.sp - 1)]
  | .implied .pha | .implied .php => [stackAddr s.sp]
  | .implied .brk => [stackAddr s.sp, stackAddr (s.sp - 1), stackAddr (s.sp - 2)]
  | _ => []

/-- A list of writes leaves every byte at another address as it was. -/
theorem writes_read_ne (writes : List (Word × Byte)) (b : Bus) {k : Word} (h : k ∉ writes.map Prod.fst) :
    (writes.foldl (fun b w => b.write w.1 w.2) b).read k = b.read k := by
  induction writes generalizing b with
  | nil => rfl
  | cons w rest ih =>
    rw [List.map_cons, List.mem_cons, not_or] at h
    obtain ⟨hne, hrest⟩ := h
    rw [List.foldl_cons, ih _ hrest, Bus.read_write_ne b w.2 hne]

/-- A shift in memory writes once, at the address its mode gives before the instruction. -/
theorem shift_mem_bus {bits : Byte → Byte × Bool} {m : AddrMode} {s t : State} (h : shift bits (.mem m) s = .next t) :
    t.bus = s.bus.write (effAddr m s) (bits (s.read (effAddr m s))).1 := by
  cases h
  rw [State.setNZ_bus, targetWrite_mem, State.write_bus, effAddr_congr (s := s) rfl rfl rfl m]
  rfl

/-- The form leaves the bus as writes to the addresses of `storedAt` would. -/
theorem runForm_writes_storedAt {f : Form} {s t : State} (h : runForm f s = .next t) :
    ∃ writes : List (Word × Byte),
      writes.map Prod.fst = storedAt s f ∧ t.bus = writes.foldl (fun b w => b.write w.1 w.2) s.bus := by
  cases f with
  | read op o => cases op <;> (cases h; exact ⟨[], rfl, rfl⟩)
  | store op m => cases op <;> (cases h; exact ⟨[(_, _)], rfl, rfl⟩)
  | rmw op g =>
    cases g with
    | acc => cases op <;> (cases h; exact ⟨[], rfl, rfl⟩)
    | mem m =>
      cases op with
      | inc | dec => cases h; exact ⟨[(_, _)], rfl, rfl⟩
      | asl | lsr => exact ⟨[(_, _)], rfl, shift_mem_bus h⟩
      | rol => exact ⟨[(_, _)], rfl, shift_mem_bus (bits := fun old => rolBits old s.p.c) h⟩
      | ror => exact ⟨[(_, _)], rfl, shift_mem_bus (bits := fun old => rorBits old s.p.c) h⟩
  | jump w => cases h; exact ⟨[], rfl, rfl⟩
  | jumpInd w => cases h; exact ⟨[], rfl, rfl⟩
  | call w => cases h; exact ⟨[(_, _), (_, _)], rfl, rfl⟩
  | branch op d => rw [runForm_branch] at h; cases h; exact ⟨[], rfl, rfl⟩
  | implied op =>
    cases op with
    | brk =>
      rw [next_unique h (u := (s.past 2).interruptEntry true) rfl, State.interruptEntry_eq]
      exact ⟨[(_, _), (_, _), (_, _)], rfl, rfl⟩
    | pha | php => cases h; exact ⟨[(_, _)], rfl, rfl⟩
    | _ => cases h; exact ⟨[], rfl, rfl⟩

/-- Every byte outside the addresses of `storedAt` reads as before. -/
theorem runForm_same_memory_but {f : Form} {s t : State} (h : runForm f s = .next t) :
    SameMemoryBut (storedAt s f) s t := by
  obtain ⟨writes, haddrs, hbus⟩ := runForm_writes_storedAt h
  intro k hk
  rw [State.read_eq, hbus]
  exact writes_read_ne writes s.bus (haddrs ▸ hk)

/-- A form that stores nothing leaves the bus as it was. -/
theorem runForm_bus_of_stores_nothing {f : Form} {s t : State} (h : runForm f s = .next t) (hnone : storedAt s f = []) :
    t.bus = s.bus := by
  obtain ⟨writes, haddrs, hbus⟩ := runForm_writes_storedAt h
  rw [hnone, List.map_eq_nil_iff] at haddrs
  rw [hbus, haddrs, List.foldl_nil]

theorem sameMemory_of_bus {s t : State} (h : t.bus = s.bus) : SameMemory s t :=
  State.read_congr h

/-- R13 to R16: a register that no rule of the form names is kept. -/
theorem runForm_keeps_registers {f : Form} {s t : State} (h : runForm f s = .next t) :
    (writesA f = false → t.a = s.a) ∧ (writesX f = false → t.x = s.x) ∧
    (writesY f = false → t.y = s.y) ∧ (writesSP f = false → t.sp = s.sp) := by
  cases f with
  | read op o => cases op <;> (cases h; simp [writesA, writesX, writesY])
  | store op m => cases op <;> (cases h; simp)
  | rmw op g =>
    cases g with
    | acc => cases op <;> (cases h; simp [writesA])
    | mem m => cases op <;> (cases h; simp)
  | jump w => cases h; simp
  | jumpInd w => cases h; simp
  | call w => cases h; simp [writesSP]
  | branch op d => rw [runForm_branch] at h; cases h; simp
  | implied op => cases op <;> (cases h; simp [writesA, writesX, writesY, writesSP])

/-- R23: a flag whose row of the table does not name the form is kept. -/
theorem runForm_keeps_flags {f : Form} {s t : State} (h : runForm f s = .next t) :
    (writesC f = false → t.p.c = s.p.c) ∧ (writesNZ f = false → t.p.z = s.p.z) ∧
    (writesNZ f = false → t.p.n = s.p.n) ∧ (writesI f = false → t.p.i = s.p.i) ∧
    (writesD f = false → t.p.d = s.p.d) ∧ (writesB f = false → t.p.b = s.p.b) ∧
    (writesV f = false → t.p.v = s.p.v) := by
  cases f with
  | read op o => cases op <;> (cases h; simp [writesC, writesNZ, writesV, State.aluAdd_p, State.aluSubtract])
  | store op m => cases op <;> (cases h; simp)
  | rmw op g =>
    cases g with
    | acc => cases op <;> (cases h; simp [writesC, writesNZ])
    | mem m => cases op <;> (cases h; simp [writesC, writesNZ])
  | jump w => cases h; simp
  | jumpInd w => cases h; simp
  | call w => cases h; simp
  | branch op d => rw [runForm_branch] at h; cases h; simp
  | implied op => cases op <;> (cases h; simp [writesC, writesNZ, writesI, writesD, writesB, writesV])

/-- Two status registers with the same seven flags are one. -/
theorem Status.eq_of_fields {p q : Status} (hc : p.c = q.c) (hz : p.z = q.z) (hi : p.i = q.i) (hd : p.d = q.d)
    (hb : p.b = q.b) (hv : p.v = q.v) (hn : p.n = q.n) : p = q := by
  cases p
  cases q
  congr

/-- An implied instruction that does not push stores nothing. -/
theorem storedAt_implied {s : State} {op : ImpliedOp} (h : op ∉ [.pha, .php, .brk]) : storedAt s (.implied op) = [] := by
  cases op with
  | pha | php | brk => simp at h
  | _ => rfl

/-- Settles O45. -/
theorem readOnlyOperandFrame : Obligations.ReadOnlyOperandFrame := by
  intro i op o s t hform hexec
  rw [exec_of_form hform] at hexec
  have hbus := runForm_bus_of_stores_nothing hexec rfl
  obtain ⟨ha, hx, hy, hsp⟩ := runForm_keeps_registers hexec
  obtain ⟨hc, _, _, hi, hd, hb, hv⟩ := runForm_keeps_flags hexec
  exact ⟨sameMemory_of_bus hbus, hbus, hsp rfl, fun h => ha (decide_eq_false h), fun h => hx (decide_eq_false h),
    fun h => hy (decide_eq_false h), hi rfl, hd rfl, hb rfl, fun h => hc (decide_eq_false h),
    fun h => hv (decide_eq_false h)⟩

/-- Settles O46. -/
theorem storeFrame : Obligations.StoreFrame := by
  intro i op m s t hform hexec
  obtain ⟨hmap, _⟩ := exec_keeps_bus hexec
  rw [exec_of_form hform] at hexec
  obtain ⟨ha, hx, hy, hsp⟩ := runForm_keeps_registers hexec
  obtain ⟨hc, hz, hn, hi, hd, hb, hv⟩ := runForm_keeps_flags hexec
  refine ⟨?_, hmap, ha rfl, hx rfl, hy rfl, hsp rfl, ?_⟩
  · rintro a rfl
    exact runForm_same_memory_but hexec
  · exact Status.eq_of_fields (hc rfl) (hz rfl) (hi rfl) (hd rfl) (hb rfl) (hv rfl) (hn rfl)

/-- Settles O47. -/
theorem readModifyWriteFrame : Obligations.ReadModifyWriteFrame := by
  intro i op g s t hform hexec
  obtain ⟨hmap, _⟩ := exec_keeps_bus hexec
  rw [exec_of_form hform] at hexec
  obtain ⟨ha, hx, hy, hsp⟩ := runForm_keeps_registers hexec
  obtain ⟨hc, _, _, hi, hd, hb, hv⟩ := runForm_keeps_flags hexec
  refine ⟨?_, ?_, hmap, hx rfl, hy rfl, hsp rfl, hv rfl, hi rfl, hd rfl, hb rfl, ?_⟩
  · rintro rfl
    exact sameMemory_of_bus (runForm_bus_of_stores_nothing hexec rfl)
  · rintro m a rfl rfl
    exact ⟨runForm_same_memory_but hexec, ha (by simp [writesA])⟩
  · rintro (rfl | rfl)
    · exact hc rfl
    · exact hc rfl

/-- Settles O48. -/
theorem registerAndPullFrame : Obligations.RegisterAndPullFrame := by
  intro i s t hexec
  refine ⟨fun w hform => ?_, fun op d hform => ?_, fun op hform hop => ?_⟩
  · rcases hform with hform | hform <;> (rw [exec_of_form hform] at hexec; cases hexec; rfl)
  · rw [exec_of_form hform, runForm_branch] at hexec
    cases hexec
    rfl
  · rw [exec_of_form hform] at hexec
    have hbus := runForm_bus_of_stores_nothing hexec (storedAt_implied hop)
    obtain ⟨ha, hx, hy, hsp⟩ := runForm_keeps_registers hexec
    refine ⟨sameMemory_of_bus hbus, hbus, fun h => ha (decide_eq_false h), fun h => hx (decide_eq_false h),
      fun h => hy (decide_eq_false h), fun h => hsp (decide_eq_false ?_), ?_⟩
    · simp only [List.mem_cons, List.not_mem_nil, or_false, not_or] at h hop ⊢
      tauto
    · rw [← List.mem_singleton (b := ImpliedOp.clv)]
      refine ⟨?_, ?_, ?_, ?_, ?_, ?_⟩ <;> (intro h; fin_cases h <;> (cases hexec; rfl))

/-- Settles O49. -/
theorem pushFrame : Obligations.PushFrame := by
  intro i s t hexec
  obtain ⟨hmap, _⟩ := exec_keeps_bus hexec
  rw [exec_eq_run] at hexec
  have hmem := runForm_same_memory_but hexec
  refine ⟨fun hform => ?_, fun w hform => ?_, fun hform => ?_⟩
  · rcases hform with hform | hform <;>
      (rw [hform] at hexec hmem; cases hexec; exact ⟨hmem, hmap, rfl, rfl, rfl, rfl, rfl⟩)
  · rw [hform] at hexec hmem
    cases hexec
    have hsp : s.sp - 1 - 1 = s.sp - 2 := by bv_omega
    exact ⟨hmem, hmap, rfl, rfl, rfl, hsp, rfl⟩
  · rw [hform] at hexec hmem
    rw [next_unique hexec (u := (s.past 2).interruptEntry true) rfl, State.interruptEntry_eq] at hmap hmem ⊢
    exact ⟨hmem, hmap, rfl, rfl, rfl, rfl, rfl⟩

/-- What changed has a writer, where all that no writer names is kept. -/
theorem writer_of_changed {α : Type} {old new : α} {writes : Bool} (hkept : writes = false → new = old)
    (hchanged : new ≠ old) : writes = true := by
  by_contra h
  exact hchanged (hkept (Bool.eq_false_of_not_eq_true h))

/-- Settles O50. -/
theorem flagsChangeOnlyByTheirWriters : Obligations.FlagsChangeOnlyByTheirWriters := by
  intro i s t hexec
  rw [exec_eq_run] at hexec
  obtain ⟨hc, hz, hn, hi, hd, hb, hv⟩ := runForm_keeps_flags hexec
  exact ⟨writer_of_changed hc, writer_of_changed hz, writer_of_changed hn, writer_of_changed hi, writer_of_changed hd,
    writer_of_changed hb, writer_of_changed hv⟩

/-- Settles O51. -/
theorem registersChangeOnlyByTheirWriters : Obligations.RegistersChangeOnlyByTheirWriters := by
  intro i s t hexec
  rw [exec_eq_run] at hexec
  obtain ⟨ha, hx, hy, hsp⟩ := runForm_keeps_registers hexec
  exact ⟨writer_of_changed ha, writer_of_changed hx, writer_of_changed hy, writer_of_changed hsp⟩

/-- R74: every instruction is a form of the table; so INC and DEC have no accumulator form. -/
theorem instr_wf (i : Instr) : i.form.wf = true := by
  cases i <;> rfl

/-- R18: a form of the table that is no control transfer ends past its own bytes. -/
theorem runForm_falls_through {f : Form} {s t : State} (h : runForm f s = .next t) (hwf : f.wf = true)
    (hstays : transfersControl f = false) : t.pc = pcPast s f.format.length := by
  rw [pcPast_eq]
  cases f with
  | read op o => cases op <;> (cases h; rfl)
  | store op m => cases op <;> (cases h; rfl)
  | rmw op g =>
    cases g with
    | acc =>
      cases op with
      | inc | dec => cases hwf
      | _ => cases h; rfl
    | mem m => cases op <;> (cases h; rfl)
  | jump w => cases hstays
  | jumpInd w => cases hstays
  | call w => cases hstays
  | branch op d => cases hstays
  | implied op =>
    cases op with
    | rts | brk | rti => cases hstays
    | _ => cases h; rfl

/-- Settles O52. -/
theorem otherInstructionsFallThrough : Obligations.OtherInstructionsFallThrough := by
  intro i s t hexec hstays
  rw [exec_eq_run] at hexec
  rw [encode_length]
  exact runForm_falls_through hexec (instr_wf i) hstays

end Sys2Proof.Machine
end

section
/-! PROOFS. The stack's round trips (20_memory.md section 4, 60_exceptions.md section 5): on a RAM-backed stack page a pull
returns what was pushed last, and a pull past it reads as if it had not been pushed. -/

namespace Sys2Proof.Machine

/-- What a pull returns is a matter of SP and the bus alone. -/
theorem State.pulledByte_congr {s t : State} (hsp : t.sp = s.sp) (hbus : t.bus = s.bus) :
    t.pulledByte = s.pulledByte := by
  rw [State.pulledByte, State.read_congr hbus, hsp, State.pulledByte]

theorem State.pulledWord_congr {s t : State} (hsp : t.sp = s.sp) (hbus : t.bus = s.bus) :
    t.pulledWord = s.pulledWord := by
  have hnext : t.afterPull.pulledByte = s.afterPull.pulledByte :=
    State.pulledByte_congr (by rw [State.afterPull_sp, hsp, State.afterPull_sp]) hbus
  rw [State.pulledWord, State.pulledByte_congr hsp hbus, hnext, State.pulledWord]

/-- A push touches its own slot alone. -/
theorem State.read_push_ne (s : State) (v : Byte) {q : Byte} (h : q ≠ s.sp) :
    (s.push v).read (stackAddr q) = s.read (stackAddr q) :=
  Bus.read_write_ne s.bus v fun he => h (stackAddr_injective he)

/-- Past a pushed byte lies what lay on the stack before. -/
theorem State.pulledByte_afterPull_push (s : State) (v : Byte) : (s.push v).afterPull.pulledByte = s.pulledByte := by
  have hslot : s.sp - 1 + 1 + 1 = s.sp + 1 := by bv_omega
  have hne : s.sp + 1 ≠ s.sp := by bv_omega
  calc (s.push v).afterPull.pulledByte
      = (s.push v).read (stackAddr (s.sp - 1 + 1 + 1)) := rfl
    _ = s.pulledByte := by rw [hslot, s.read_push_ne v hne, State.pulledByte]

/-- The same of a word's second byte. -/
theorem State.pulledByte_afterPull_afterPull_push (s : State) (v : Byte) :
    (s.push v).afterPull.afterPull.pulledByte = s.afterPull.pulledByte := by
  have hslot : s.sp - 1 + 1 + 1 + 1 = s.sp + 1 + 1 := by bv_omega
  have hne : s.sp + 1 + 1 ≠ s.sp := by bv_omega
  calc (s.push v).afterPull.afterPull.pulledByte
      = (s.push v).read (stackAddr (s.sp - 1 + 1 + 1 + 1)) := rfl
    _ = s.read (stackAddr (s.sp + 1 + 1)) := by rw [hslot, s.read_push_ne v hne]
    _ = s.afterPull.pulledByte := rfl

theorem State.pulledWord_afterPull_push (s : State) (v : Byte) : (s.push v).afterPull.pulledWord = s.pulledWord := by
  rw [State.pulledWord, State.pulledByte_afterPull_push, State.pulledByte_afterPull_afterPull_push, State.pulledWord]

/-- R243: what an interrupt entry has pushed before it sets I and loads PC: PC and then the status byte. -/
def State.entryPushed (s : State) (sw : Bool) : State :=
  (s.pushWord s.pc).push (Status.toByte { s.p with b := sw })

theorem State.interruptEntry_bus_eq (s : State) (sw : Bool) : (s.interruptEntry sw).bus = (s.entryPushed sw).bus := rfl

theorem State.interruptEntry_sp_eq (s : State) (sw : Bool) : (s.interruptEntry sw).sp = (s.entryPushed sw).sp := rfl

/-- R221: the word under the status byte is the PC a return from an interrupt loads. -/
theorem State.interruptReturn_pc_eq (s : State) : s.interruptReturn.pc = s.afterPull.pulledWord := rfl

end Sys2Proof.Machine

namespace Sys2Proof

open Machine

/-- A RAM-backed stack page is a matter of the bus alone. -/
theorem RamStack.congr {s t : State} (h : RamStack s) (hbus : t.bus = s.bus) : RamStack t := by
  rw [RamStack, State.wf, hbus]
  exact h

/-- A push keeps the stack page RAM-backed and the bus in order. -/
theorem RamStack.push {s : State} (h : RamStack s) (v : Byte) : RamStack (s.push v) := by
  obtain ⟨hwf, hram⟩ := h
  refine ⟨Bus.wf_write hwf _ v, fun q => ?_⟩
  rw [State.push_bus, Bus.write_map]
  exact hram q

/-- R50, R51: a pull returns what was pushed last. -/
theorem RamStack.pulledByte_push {s : State} (h : RamStack s) (v : Byte) : (s.push v).pulledByte = v := by
  obtain ⟨hwf, hram⟩ := h
  have hslot : s.sp - 1 + 1 = s.sp := by bv_omega
  rw [State.pulledByte, State.read_eq, State.push_bus, State.push_sp, hslot]
  exact Bus.read_write_same v (Bus.wf_cells hwf) (hram s.sp)

/-- R201, R202: two pulls return a word pushed high byte first. -/
theorem RamStack.pulledWord_pushWord {s : State} (h : RamStack s) (w : Word) : (s.pushWord w).pulledWord = w := by
  rw [State.pulledWord, State.pushWord, State.pulledByte_afterPull_push, (h.push _).pulledByte_push,
    h.pulledByte_push, wordOf_highByte_lowByte]

/-- Settles O53. -/
theorem pullReturnsWhatWasPushed : Obligations.PullReturnsWhatWasPushed := by
  intro s v
  have hsp : s.sp - 1 + 1 = s.sp := by bv_omega
  exact ⟨stackAddr_toNat s.sp, fun h => ⟨h.pulledByte_push v, hsp⟩⟩

/-- R202: RTS as two pulls of a word. -/
theorem exec_rts (s : State) :
    exec .rts s = .next { s with sp := s.sp + 1 + 1, pc := s.pulledWord + 1 } := by
  rw [exec_eq_run, Instr.form, runForm, execRts]
  rfl

/-- R201: JSR as the push of a word, the address of its own last byte. -/
theorem exec_jsr (w : Word) (s : State) :
    let pushed := (s.past 3).pushWord ((s.past 3).pc - 1)
    exec (.jsr w) s = .next { pushed with pc := w } := by
  rw [exec_eq_run, Instr.form, runForm, execJsr]

/-- Settles O54. RTS pulls the word JSR pushed, which is one less than the address after the JSR. -/
theorem rtsReturnsAfterJsr : Obligations.RtsReturnsAfterJsr := by
  intro s w hram
  let pushed := (s.past 3).pushWord ((s.past 3).pc - 1)
  have hpast : RamStack (s.past 3) := hram.congr rfl
  have hword : State.pulledWord { pushed with pc := w } = (s.past 3).pc - 1 :=
    (State.pulledWord_congr (s := pushed) rfl rfl).trans (hpast.pulledWord_pushWord _)
  have hpc : (s.past 3).pc - 1 + 1 = pcPast s 3 := by
    rw [State.past_pc, pcPast_eq]
    bv_omega
  refine ⟨_, _, exec_jsr w s, exec_rts _, ?_⟩
  rw [hword, hpc]
  simp

/-- R221, R248: the return from an interrupt restores all that its entry saved; Break is the one the entry wrote. -/
theorem RamStack.interruptReturn_interruptEntry {s : State} (h : RamStack s) (sw : Bool) :
    (s.interruptEntry sw).interruptReturn =
      { s with p := { s.p with b := sw }, bus := (s.interruptEntry sw).bus } := by
  have hword : RamStack (s.pushWord s.pc) := (h.push _).push _
  have hstatus : (s.interruptEntry sw).pulledByte = Status.toByte { s.p with b := sw } := by
    rw [State.pulledByte_congr (s.interruptEntry_sp_eq sw) (s.interruptEntry_bus_eq sw), State.entryPushed,
      hword.pulledByte_push]
  have hreturn : (s.interruptEntry sw).afterPull.pulledWord = s.pc := by
    have hentry : (s.interruptEntry sw).afterPull.pulledWord = (s.entryPushed sw).afterPull.pulledWord :=
      State.pulledWord_congr (congrArg (· + 1) (s.interruptEntry_sp_eq sw)) (s.interruptEntry_bus_eq sw)
    rw [hentry, State.entryPushed, State.pulledWord_afterPull_push, h.pulledWord_pushWord]
  have hsp : s.sp - 1 - 1 - 1 + 1 + 1 + 1 = s.sp := by bv_omega
  refine State.eq_of_fields ?_ ?_ ?_ ?_ ?_ ?_ ?_
  · rw [State.interruptReturn_a, State.interruptEntry_a]
  · rw [State.interruptReturn_x, State.interruptEntry_x]
  · rw [State.interruptReturn_y, State.interruptEntry_y]
  · rw [State.interruptReturn_sp, State.interruptEntry_sp, hsp]
  · rw [State.interruptReturn_pc_eq, hreturn]
  · rw [State.interruptReturn_p, hstatus, Status.ofByte_toByte]
  · rw [State.interruptReturn_bus]

/-- Settles O55. -/
theorem rtiRestoresWhatBrkSaved : Obligations.RtiRestoresWhatBrkSaved := by
  intro s h
  have hpast : RamStack (s.past 2) := h.congr rfl
  refine ⟨_, _, exec_brk s, exec_rti _, ?_⟩
  rw [hpast.interruptReturn_interruptEntry true, State.past_eq]

/-- Settles O58. -/
theorem rtiResumesInterruptedProgram : Obligations.RtiResumesInterruptedProgram := by
  intro s h hclear
  refine ⟨_, exec_rti _, ?_⟩
  rw [State.interruptRequest, if_pos hclear, h.interruptReturn_interruptEntry false]

end Sys2Proof
end

section
/-! PROOFS. The litmus of 20_memory.md rule R63: a stored instruction is run with no delay. -/

namespace Sys2Proof.Machine

/-- R63: where INX's byte stands at PC, the step is INX. -/
theorem step_of_inx {s : State} (h : s.read s.pc = 0xE8) :
    ∃ t, step s = .next t ∧ t.x = s.x + 1 ∧ t.pc = s.pc + 1 := by
  have hdecode : decode s.stream = .ok (.inx, [s.read (s.pc + 1), s.read (s.pc + 2)]) := by
    rw [State.stream, h]
    exact decodeInvertsEncode .inx _
  exact ⟨_, step_of_decode hdecode, rfl, rfl⟩

/-- Settles O56. The byte stored behind STA is what stands at PC after it. -/
theorem storedInstructionRunsNext : Obligations.StoredInstructionRunsNext := by
  intro s hwf hram hdecode ha
  obtain ⟨hsta, _⟩ := storesWriteRegisterToAddress (.staAbs (s.pc + 3)) (.abs (s.pc + 3)) s
  have hstep := stepRunsDecodedInstruction s _ _ hdecode _ (hsta rfl)
  have hpc : pcPast s 3 = s.pc + 3 := pcPast_eq s 3
  have hstored : (s.bus.write (s.pc + 3) s.a).tick.read (pcPast s 3) = 0xE8 := by
    rw [Bus.read_tick, hpc, Bus.read_write_same s.a (Bus.wf_cells hwf) hram, ha]
  obtain ⟨u, hinx, hx, hupc⟩ := step_of_inx (s := { s with
    pc := pcPast s 3, bus := (s.bus.write (s.pc + 3) s.a).tick }) hstored
  refine ⟨_, u, hstep, hinx, rfl, hx, hupc.trans ?_⟩
  change pcPast s 3 + 1 = s.pc + 4
  rw [hpc]
  bv_omega

end Sys2Proof.Machine
end

section
/-! PROOFS. Decimal is observed only by pushing the status byte (10_state.md rule R23, 41_alu.md rule R127). -/

namespace Sys2Proof.Machine

/-- The state with another Decimal flag. -/
def State.withDecimal (s : State) (d : Bool) : State := { s with p := { s.p with d := d } }

theorem agreeButDecimal_iff {s t : State} : AgreeButDecimal s t ↔ ∃ d, t = s.withDecimal d := by
  constructor
  · exact fun h => ⟨t.p.d, h⟩
  · rintro ⟨d, rfl⟩
    rfl

/-- R23, R127: no form but PHP and BRK takes states that differ in Decimal alone further apart. Operands come by X, Y and the
bus, so in each mode the two runs compute the same values. -/
theorem runForm_agrees_but_decimal {f : Form} {s t : State} (d : Bool) (hphp : f ≠ .implied .php)
    (hbrk : f ≠ .implied .brk) (h : runForm f s = .next t) :
    ∃ t', runForm f (s.withDecimal d) = .next t' ∧ AgreeButDecimal t t' := by
  cases f with
  | read op o =>
    cases o with
    | imm v => cases op <;> (cases h; exact ⟨_, rfl, rfl⟩)
    | mem m => cases m <;> cases op <;> (cases h; exact ⟨_, rfl, rfl⟩)
  | store op m => cases m <;> cases op <;> (cases h; exact ⟨_, rfl, rfl⟩)
  | rmw op g =>
    cases g with
    | acc => cases op <;> (cases h; exact ⟨_, rfl, rfl⟩)
    | mem m => cases m <;> cases op <;> (cases h; exact ⟨_, rfl, rfl⟩)
  | jump w => cases h; exact ⟨_, rfl, rfl⟩
  | jumpInd w => cases h; exact ⟨_, rfl, rfl⟩
  | call w => cases h; exact ⟨_, rfl, rfl⟩
  | branch op d' =>
    rw [runForm_branch] at h
    cases h
    exact ⟨_, runForm_branch op d' _, rfl⟩
  | implied op =>
    cases op with
    | php => exact absurd rfl hphp
    | brk => exact absurd rfl hbrk
    | _ => cases h; exact ⟨_, rfl, rfl⟩

/-- The form that pushes the status byte is PHP's alone. -/
theorem encode_of_form_php {i : Instr} (h : i.form = .implied .php) : encode i = [0x08] := by
  cases i <;> cases h
  rfl

/-- The form that enters an interrupt is BRK's alone. -/
theorem encode_of_form_brk {i : Instr} (h : i.form = .implied .brk) : encode i = [0x00] := by
  cases i <;> cases h
  rfl

/-- The instruction decoded at PC is encoded with the byte at PC first. -/
theorem head_of_decode_stream {s : State} {i : Instr} {op : Byte} {operand rest : List Byte}
    (hdecode : decode s.stream = .ok (i, rest)) (hencode : encode i = op :: operand) : s.read s.pc = op := by
  have hstream := encodeInvertsDecode _ _ _ hdecode
  rw [hencode] at hstream
  exact List.head_eq_of_cons_eq hstream

/-- Settles O29. A fetch does not look at Decimal, and the instruction it decodes is neither PHP nor BRK. -/
theorem decimalIsObservedOnlyByPushingStatus : Obligations.DecimalIsObservedOnlyByPushingStatus := by
  intro s s' t hagree hphp hbrk hstep
  obtain ⟨d, rfl⟩ := agreeButDecimal_iff.mp hagree
  obtain ⟨i, rest, u, hdecode, hexec, rfl⟩ := step_next hstep
  have hnotPhp : i.form ≠ .implied .php := fun h => hphp (head_of_decode_stream hdecode (encode_of_form_php h))
  have hnotBrk : i.form ≠ .implied .brk := fun h => hbrk (head_of_decode_stream hdecode (encode_of_form_brk h))
  rw [exec_eq_run] at hexec
  obtain ⟨u', hexec', hagree'⟩ := runForm_agrees_but_decimal d hnotPhp hnotBrk hexec
  obtain ⟨d', rfl⟩ := agreeButDecimal_iff.mp hagree'
  have hdecode' : decode (s.withDecimal d).stream = .ok (i, rest) := hdecode
  refine ⟨_, ?_, agreeButDecimal_iff.mpr ⟨d', rfl⟩⟩
  rw [step_of_decode hdecode', exec_eq_run, hexec', withTick_next]
  rfl

end Sys2Proof.Machine
end
